-- ==== Sys2Proof/Word.lean ====
section
/-!
DEFINITION. The words of the engine (spec/00_scope.md R7, R9, R10): a byte, a 16-bit command word and a 32-bit word.
A 32-bit word stands for a `u32` by `toNat` and for an `i32` by `toInt`.
-/

namespace Sys2Proof

/-- A byte, an unsigned integer 0..255 (R9). -/
abbrev Byte := BitVec 8

/-- A command word `CW[15:0]` (R78). -/
abbrev Command := BitVec 16

/-- A 32-bit word: the pattern of an `i32` or a `u32` (R10). -/
abbrev Word := BitVec 32

end Sys2Proof
end

