-- ==== Sys2Proof/Machine/Arith.lean ====
section
/-!
DEFINITION. The arithmetic of the engine: the six primitives on i32 of spec/00_scope.md R11 with `wrap32` (R10), the
extensions of R10, the byte operators of R12 as far as rules name a combination of them, and `clamp` (R14). Each
primitive computes on mathematical integers and narrows once, as R11 writes it.
-/

namespace Sys2Proof.Machine

/-- `wrap32(z)`: the one i32 congruent to `z` modulo 2^32 (R10). -/
def wrap32 (z : Int) : Word := BitVec.ofInt 32 z

/-- `a +32 b` (R11). -/
def add32 (a b : Word) : Word := wrap32 (a.toInt + b.toInt)

/-- `a -32 b` (R11). -/
def sub32 (a b : Word) : Word := wrap32 (a.toInt - b.toInt)

/-- `a *32 b` (R11). -/
def mul32 (a b : Word) : Word := wrap32 (a.toInt * b.toInt)

/-- `a <<32 n` (R11). -/
def shl32 (a : Word) (n : Nat) : Word := wrap32 (a.toInt * 2 ^ n)

/-- `a >>a n`: `floor(a / 2^n)` (R11). Lean's integer division rounds down when the divisor is positive. -/
def sar32 (a : Word) (n : Nat) : Word := wrap32 (a.toInt / 2 ^ n)

/-- An unsigned stored value converted to i32 (R10, R102). -/
def zextWord {w : Nat} (v : BitVec w) : Word := v.setWidth 32

/-- A signed stored value converted to i32 (R10, R102). -/
def sextWord {w : Nat} (v : BitVec w) : Word := v.signExtend 32

/-- `clamp(v, lo, hi)` on signed values (R14). -/
def clampInt (v lo hi : Int) : Int :=
  if v < lo then lo else if hi < v then hi else v

/-- `le16(lo, hi) = lo | (hi << 8)`, a value 0..65535 (R101), with the byte operators of R12. -/
def le16 (lo hi : Byte) : Nat := lo.toNat ||| (hi.toNat <<< 8)

end Sys2Proof.Machine
end

