-- ==== Sys2Proof/Syntax.lean ====
section
/-!
DEFINITION. The eight commands of the opcode map (spec/30_encoding.md R83), one constructor each. Operands are the
fields of R80 and R81 at their own widths, so every term is a word the decoder can give (R86).
-/

namespace Sys2Proof

/-- A command (R83). -/
inductive Instr where
  /-- Load the calibration (R100). -/
  | calld
  /-- Acquire a raw reading (R110). -/
  | acq
  /-- Compensate the temperature (R120). -/
  | tcomp
  /-- Compensate the humidity (R130). -/
  | hcomp
  /-- One acquisition cycle (R141). -/
  | cycle
  /-- Reset the engine (R156). -/
  | srst
  /-- Write one byte of the input buffer (R150). -/
  | wrb (addr : BitVec 6) (data : Byte)
  /-- Read one register (R152). -/
  | rd (reg : BitVec 6)
  deriving DecidableEq, Repr

end Sys2Proof
end

