-- ==== Sys2Proof/Decode.lean ====
section
/-!
DEFINITION. The decoder and the encoder of command words (spec/30_encoding.md R78 to R86). The decoder is total on all
65536 words and names the kind of every reserved word (R84).
-/

namespace Sys2Proof

/-- The rows of R84: why a word is reserved. Every one of them raises ILLEGAL_CMD. -/
inductive ReservedWord where
  /-- `0x0000`: format O with `funct = 0`. -/
  | allZero
  /-- `0x0600 .. 0x0E00`: format O with `funct` 0x6..0xE. -/
  | unassignedFunct
  /-- `0x0001 .. 0x0FFF` with `CW[7:0] ≠ 0`: format O with a non-zero low byte. -/
  | lowByteNotZero
  /-- `0x1000 .. 0x3FFF`: `CW[15:12]` in 0001, 0010, 0011. -/
  | opcodeOneToThree
  /-- `0x8040 .. 0x8FFF`: format R with `CW[11:6] ≠ 0`. -/
  | readHighBitsNotZero
  /-- `0x9000 .. 0xFFFF`: `CW[15:12]` in 1001 .. 1111. -/
  | opcodeNineToFifteen
  deriving DecidableEq, Repr

/-- The format-O command a `funct` selects (R82 step 3, R83). -/
def decodeFunct (funct : BitVec 4) : Except ReservedWord Instr :=
  if funct = 0x1#4 then .ok .calld
  else if funct = 0x2#4 then .ok .acq
  else if funct = 0x3#4 then .ok .tcomp
  else if funct = 0x4#4 then .ok .hcomp
  else if funct = 0x5#4 then .ok .cycle
  else if funct = 0xF#4 then .ok .srst
  else if funct = 0x0#4 then .error .allZero
  else .error .unassignedFunct

/-- The decoder, in the order of R82. -/
def decode (cw : Command) : Except ReservedWord Instr :=
  if cw.extractLsb' 14 2 = 0b01#2 then
    .ok (.wrb (cw.extractLsb' 8 6) (cw.extractLsb' 0 8))
  else if cw.extractLsb' 12 4 = 0b1000#4 then
    if cw.extractLsb' 6 6 = 0#6 then .ok (.rd (cw.extractLsb' 0 6)) else .error .readHighBitsNotZero
  else if cw.extractLsb' 12 4 = 0b0000#4 then
    if cw.extractLsb' 0 8 = 0#8 then decodeFunct (cw.extractLsb' 8 4) else .error .lowByteNotZero
  else if cw.extractLsb' 14 2 = 0b00#2 then .error .opcodeOneToThree
  else .error .opcodeNineToFifteen

/-- A format-O word (R79): `funct` in bits 11:8, every other bit 0. -/
def formatO (funct : BitVec 4) : Command := funct.setWidth 16 <<< 8

/-- A format-W word (R80): `0x4000 | addr << 8 | data`. -/
def formatW (addr : BitVec 6) (data : Byte) : Command :=
  0x4000#16 ||| addr.setWidth 16 <<< 8 ||| data.setWidth 16

/-- A format-R word (R81): `0x8000 | reg`. -/
def formatR (reg : BitVec 6) : Command := 0x8000#16 ||| reg.setWidth 16

/-- The word of a command (R83). -/
def encode : Instr → Command
  | .calld => formatO 0x1
  | .acq => formatO 0x2
  | .tcomp => formatO 0x3
  | .hcomp => formatO 0x4
  | .cycle => formatO 0x5
  | .srst => formatO 0xF
  | .wrb addr data => formatW addr data
  | .rd reg => formatR reg

/-- The mask column of R83. -/
def rowMask : Instr → Command
  | .calld => 0xFFFF
  | .acq => 0xFFFF
  | .tcomp => 0xFFFF
  | .hcomp => 0xFFFF
  | .cycle => 0xFFFF
  | .srst => 0xFFFF
  | .wrb _ _ => 0xC000
  | .rd _ => 0xFFC0

/-- The match column of R83. -/
def rowMatch : Instr → Command
  | .calld => 0x0100
  | .acq => 0x0200
  | .tcomp => 0x0300
  | .hcomp => 0x0400
  | .cycle => 0x0500
  | .srst => 0x0F00
  | .wrb _ _ => 0x4000
  | .rd _ => 0x8000

/-- The instruction the decoder reads from a word numbered as spec/opcode_table.json numbers it. Every row gives its
one 16-bit word whole (R85), so bits above `nbits` are zeros of that word. -/
def decodeTableWord (nbits w : Nat) : Option Instr :=
  match decode (BitVec.ofNat 16 (w % 2 ^ nbits)) with
  | .ok i => some i
  | .error _ => none

end Sys2Proof
end

