-- ==== Sys2Proof/Machine/Map.lean ====
section
/-!
DEFINITION. The two address spaces: the input-buffer map (spec/20_memory.md R51) and the register numbers
(spec/30_encoding.md R88), with the constants of spec/00_scope.md R6.
-/

namespace Sys2Proof.Machine

/-! ### The input buffer (R51) -/

/-- First cell of CAL1, calibration block 1. -/
def cal1Base : BitVec 6 := 0x00

/-- First cell of CAL2, calibration block 2. -/
def cal2Base : BitVec 6 := 0x20

/-- The identity byte. -/
def idCell : BitVec 6 := 0x28

/-- First cell of RAW, the raw-data block. -/
def rawBase : BitVec 6 := 0x30

/-- Status of the bus read of calibration block 1. -/
def bstCal1 : BitVec 6 := 0x38

/-- Status of the bus read of calibration block 2. -/
def bstCal2 : BitVec 6 := 0x39

/-- Status of the bus read of the identity register. -/
def bstId : BitVec 6 := 0x3A

/-- Status of the burst read of the raw-data block. -/
def bstRaw : BitVec 6 := 0x3B

/-- CAL1_LEN (R6). -/
def cal1Len : Nat := 25

/-- CAL2_LEN (R6). -/
def cal2Len : Nat := 7

/-- RAW_LEN (R6). -/
def rawLen : Nat := 8

/-- CHIP_ID_EXPECTED (R6, R35). -/
def chipIdExpected : Byte := 0x60

/-- H_CLAMP_MIN (R6, R35). -/
def hClampMin : Int := 0

/-- H_CLAMP_MAX (R6, R35). -/
def hClampMax : Int := 419430400

/-- The 45 addresses R51 assigns; the other 19 raise ILLEGAL_ADDR (R52). -/
def addrAssigned (a : BitVec 6) : Bool :=
  decide (a.toNat ≤ 0x18)
    || (decide (0x20 ≤ a.toNat) && decide (a.toNat ≤ 0x26))
    || decide (a.toNat = 0x28)
    || (decide (0x30 ≤ a.toNat) && decide (a.toNat ≤ 0x3B))

/-! ### The register numbers (R88) -/

/-- The 28 registers RD can name. -/
inductive Reg where
  | status | fault | diagcnt
  | curT | curH | tOut | hOut | tFine | adcT | adcH
  | digT1 | digT2 | digT3
  | digP1 | digP2 | digP3 | digP4 | digP5 | digP6 | digP7 | digP8 | digP9
  | digH1 | digH2 | digH3 | digH4 | digH5 | digH6
  deriving DecidableEq, Repr

/-- The number of a register (R88). -/
def regNumber : Reg → BitVec 6
  | .status => 0x00 | .fault => 0x01 | .diagcnt => 0x02
  | .curT => 0x04 | .curH => 0x05 | .tOut => 0x06 | .hOut => 0x07
  | .tFine => 0x08 | .adcT => 0x09 | .adcH => 0x0A
  | .digT1 => 0x10 | .digT2 => 0x11 | .digT3 => 0x12
  | .digP1 => 0x13 | .digP2 => 0x14 | .digP3 => 0x15 | .digP4 => 0x16 | .digP5 => 0x17
  | .digP6 => 0x18 | .digP7 => 0x19 | .digP8 => 0x1A | .digP9 => 0x1B
  | .digH1 => 0x1C | .digH2 => 0x1D | .digH3 => 0x1E | .digH4 => 0x1F | .digH5 => 0x20 | .digH6 => 0x21

/-- Every register of R88, in the order of its numbers. -/
def allRegs : List Reg :=
  [.status, .fault, .diagcnt, .curT, .curH, .tOut, .hOut, .tFine, .adcT, .adcH,
   .digT1, .digT2, .digT3, .digP1, .digP2, .digP3, .digP4, .digP5, .digP6, .digP7, .digP8, .digP9,
   .digH1, .digH2, .digH3, .digH4, .digH5, .digH6]

/-- The register a number names; `none` for the 36 unassigned numbers (R88, R89). -/
def regOfNumber (n : BitVec 6) : Option Reg :=
  allRegs.find? fun r => regNumber r == n

end Sys2Proof.Machine
end

