-- ==== Sys2Proof/Config.lean ====
section
/-!
DEFINITION. What the spec leaves open: the five parameters of spec/00_scope.md R8, the calibration set that the parameter
HPOLY takes, and the free values. The parameters are plain data held beside the state (log entry 1); the free values are
constants with no body, so that nothing can evaluate them (log entries 5 and 7).
-/

namespace Sys2Proof

/-- The CalibrationSet: the 18 registers of R27, each at the width R27 stores it at. Whether a field is signed is said
where it is read (R88, R102). -/
structure Calibration where
  digT1 : BitVec 16
  digT2 : BitVec 16
  digT3 : BitVec 16
  digP1 : BitVec 16
  digP2 : BitVec 16
  digP3 : BitVec 16
  digP4 : BitVec 16
  digP5 : BitVec 16
  digP6 : BitVec 16
  digP7 : BitVec 16
  digP8 : BitVec 16
  digP9 : BitVec 16
  digH1 : BitVec 8
  digH2 : BitVec 16
  digH3 : BitVec 8
  digH4 : BitVec 16
  digH5 : BitVec 16
  digH6 : BitVec 8
  deriving DecidableEq, Repr, Inhabited

namespace Config

/-- CAL_FAIL_POLICY (R8, R105): what CALLD does when the host reports a failed calibration read. -/
inductive CalFailPolicy where
  /-- CALLD reads the two status cells and reports a failed read in CAL_ERR. -/
  | error
  /-- CALLD never reads the status cells and unpacks whatever the data cells hold. -/
  | silent
  deriving DecidableEq, Repr

/-- The names of the 18 constants of the CalibrationSet (R27). -/
inductive CalConst where
  | digT1 | digT2 | digT3
  | digP1 | digP2 | digP3 | digP4 | digP5 | digP6 | digP7 | digP8 | digP9
  | digH1 | digH2 | digH3 | digH4 | digH5 | digH6
  deriving DecidableEq, Repr

/-- A function of (CalibrationSet, i32 `t_fine`, i32 `adc_H`) to i32 as plain data: an expression over the i32 primitives of
R11 and a test for equality (log entry 7). Every such function is the value of some expression: `polyValue_surjective` of
Laws/Polynomial.lean. -/
inductive PolyExpr where
  | const (w : Word)
  | tFine
  | adcH
  /-- A calibration constant, converted to i32 by value (R102). -/
  | cal (k : CalConst)
  | add (a b : PolyExpr)
  | sub (a b : PolyExpr)
  | mul (a b : PolyExpr)
  | shl (a : PolyExpr) (n : Nat)
  | sar (a : PolyExpr) (n : Nat)
  /-- `yes` where `a` and `b` are equal, else `no`. -/
  | ifEq (a b yes no : PolyExpr)
  deriving DecidableEq, Repr

/-- HPOLY (R8, R132): the humidity polynomial the engine computes before the clamp, any function of the three arguments. -/
inductive HPoly where
  /-- The default chain of R132, which the spec takes from general knowledge (PRESUMED, log entry 7). -/
  | vendorChain
  /-- A polynomial of which nothing is known, as R132 offers to a model that must not trust the chain. -/
  | uninterpreted
  /-- The function the expression stands for. -/
  | given (e : PolyExpr)
  deriving DecidableEq, Repr

/-- The rounding rule of a float format (R8, FLOAT_FMT). -/
inductive Rounding where
  | nearestEven
  | towardZero
  | towardPositive
  | towardNegative
  deriving DecidableEq, Repr

/-- A binary float format, with the rule by which a rational is rounded into it (log entry 8). -/
structure FloatLayout where
  /-- Bits of the significand, the leading one included (24 for binary32). -/
  precision : Nat
  /-- Bits of the exponent field (8 for binary32). -/
  expBits : Nat
  rounding : Rounding
  deriving DecidableEq, Repr

/-- FLOAT_FMT (R8, R159): the format of the host's floats and how the division is rounded. Either the exact quotient is
rounded once into the format (`wider = none`), or the division is done in another format first and its result is narrowed
(R159, decision D21). That there is at most one format in between, and that the operands of the division are taken exactly, is
the model's (DESIGN CHOICE, log entry 8). -/
structure FloatFmt extends FloatLayout where
  wider : Option FloatLayout
  deriving DecidableEq, Repr

/-- The default of FLOAT_FMT (R8): IEEE 754 binary32, the exact quotient to nearest, ties to even. -/
def binary32 : FloatFmt := { precision := 24, expBits := 8, rounding := .nearestEven, wider := none }

/-- IEEE 754 binary64, the wider format decision D21 names. -/
def binary64 : FloatLayout := { precision := 53, expBits := 11, rounding := .nearestEven }

/-- The five parameters of R8, fixed before reset and for the whole run (R202). -/
structure Params where
  calFailPolicy : CalFailPolicy
  h45Signed : Bool
  hpoly : HPoly
  floatFmt : FloatFmt
  /-- DIAG_TEXT: the host's text for one Diag event. R8 gives it no default (`none`). -/
  diagText : Option (List Byte)
  deriving DecidableEq, Repr

/-- The defaults of R8. -/
def Params.default : Params :=
  { calFailPolicy := .error, h45Signed := false, hpoly := .vendorChain, floatFmt := binary32, diagText := none }

/-- FREE VALUE (log entry 7): the humidity polynomial where HPOLY is left uninterpreted (R8, R132). -/
opaque hpolyFree : Calibration → Word → Word → Word

/-- FREE VALUE (log entry 5): the content of a working register that has become unspecified (R43, R156). -/
opaque freeWord : Nat → Word

/-- FREE VALUE (log entry 5): the content of the calibration file when it has become unspecified (R105, R156). -/
opaque freeCalibration : Nat → Calibration

end Config

end Sys2Proof
end

