-- ==== Sys2Proof/Machine/State.lean ====
section
/-!
DEFINITION. The state of the engine (spec/10_state.md R20) as plain data, with its value after reset (R42). The last four
fields are the model's own (log entries 1, 2, 3, 5).
-/

namespace Sys2Proof.Machine

/-- What the engine puts on its output ports (R37). -/
inductive Event where
  /-- `Out(v)`: one 32-bit value on the data-out port (R153). -/
  | out (v : Word)
  /-- `Diag`: one event without data on the diag port (R143). -/
  | diag
  deriving DecidableEq, Repr

/-- The causes a command can raise (R175). Raising one is a next state of the model, R176's fault entry. -/
inductive FaultCause where
  | illegalCmd
  | illegalAddr
  | illegalReg
  | uninitInput
  | calInvalid
  | rawInvalid
  | tfineInvalid
  | uninitRead
  deriving DecidableEq, Repr

/-- The input buffer (R36): the written cells, each with its address, in strictly rising order of address. An address
that is not listed is an unwritten cell and holds no value (R53). -/
abbrev Memory := List Host.Cell

structure State where
  /-- `ADC_T`, an i32 (R21, R22). -/
  adcT : Word
  /-- `ADC_H`, an i32 (R21, R22). -/
  adcH : Word
  /-- `T_FINE`, an i32 (R23). -/
  tFine : Word
  /-- `T_OUT`, an i32 in 0.01 °C (R24, R76). -/
  tOut : Word
  /-- `H_OUT`, a u32 in Q22.10 (R24, R76). -/
  hOut : Word
  /-- `CUR_T` (R25). -/
  curT : Word
  /-- `CUR_H` (R25). -/
  curH : Word
  /-- The calibration file (R26, R27). -/
  cal : Calibration
  calValid : Bool
  rawValid : Bool
  tfValid : Bool
  toutValid : Bool
  houtValid : Bool
  curValid : Bool
  lastFail : Bool
  calErr : Bool
  faulted : Bool
  /-- `PHASE`: 0 Idle, 1 Reading (R140). -/
  phase : Bool
  /-- `FAULT`: CAUSE in bits 3:0, CMD in bits 31:16 (R33). -/
  fault : Word
  /-- `DIAGCNT` (R34). -/
  diagcnt : Word
  /-- `IB` (R36). -/
  ib : Memory
  /-- MODEL'S OWN: the parameters of R8, written by no step (log entry 1). -/
  params : Config.Params
  /-- MODEL'S OWN: the command words the host has still to present, the next one first (log entry 2). -/
  pending : List Command
  /-- MODEL'S OWN: the events so far, the oldest first (R37, R212; log entry 3). -/
  history : List Event
  /-- MODEL'S OWN: how many free values have been used (log entry 5). -/
  fresh : Nat
  deriving DecidableEq, Repr

/-- The reasons for which the model itself stops with a fault: none. The faults of the spec are next states (R176), every
command has an effect in every state (R211) and the engine has no address without a meaning (R51, R52). -/
inductive Fault
  deriving DecidableEq, Repr

/-- The reasons for which the model refuses a command. -/
inductive Refusal where
  /-- Raised by `exec` for an instruction without a meaning; no arm raises it. Safe: a run that meets it proves nothing. -/
  | notModelled (mnemonic : String)
  deriving DecidableEq, Repr

/-- The calibration file after reset. R42 gives no value; zero is the model's (DESIGN CHOICE, log entry 4). -/
def Calibration.reset : Calibration :=
  { digT1 := 0, digT2 := 0, digT3 := 0, digP1 := 0, digP2 := 0, digP3 := 0, digP4 := 0, digP5 := 0, digP6 := 0,
    digP7 := 0, digP8 := 0, digP9 := 0, digH1 := 0, digH2 := 0, digH3 := 0, digH4 := 0, digH5 := 0, digH6 := 0 }

/-- The state after reset (R42, R200). The guarded registers `adcT`, `adcH`, `tFine`, `tOut`, `hOut` and `cal` are given
no value by R42; zero is the model's (DESIGN CHOICE, log entry 4). -/
def State.reset : State :=
  { adcT := 0, adcH := 0, tFine := 0, tOut := 0, hOut := 0, curT := 0, curH := 0
    cal := Calibration.reset
    calValid := false, rawValid := false, tfValid := false, toutValid := false, houtValid := false
    curValid := false, lastFail := false, calErr := false, faulted := false, phase := false
    fault := 0, diagcnt := 0, ib := []
    params := Config.Params.default, pending := [], history := [], fresh := 0 }

end Sys2Proof.Machine
end

