-- ==== Sys2Proof/Machine/Flags.lean ====
section
/-!
DEFINITION. Flags and control registers: STATUS (spec/10_state.md R32), the packing of FAULT (R33) with the cause codes
(spec/60_exceptions.md R175), and the guards (R31).
-/

namespace Sys2Proof.Machine

/-- Bit `n` of a status word. -/
def flagBit (b : Bool) (n : Nat) : Word :=
  if b then 1#32 <<< n else 0#32

/-- `STATUS`: the ten flags at their bits, bits 31:10 zero (R30, R32). -/
def statusWord (s : State) : Word :=
  flagBit s.calValid 0 ||| flagBit s.rawValid 1 ||| flagBit s.tfValid 2 ||| flagBit s.toutValid 3
    ||| flagBit s.houtValid 4 ||| flagBit s.curValid 5 ||| flagBit s.lastFail 6 ||| flagBit s.calErr 7
    ||| flagBit s.faulted 8 ||| flagBit s.phase 9

/-- The code of a cause in `FAULT.CAUSE` (R175). -/
def causeCode : FaultCause → BitVec 4
  | .illegalCmd => 1
  | .illegalAddr => 2
  | .illegalReg => 3
  | .uninitInput => 4
  | .calInvalid => 5
  | .rawInvalid => 6
  | .tfineInvalid => 7
  | .uninitRead => 8

/-- `FAULT` after a fault: CMD in bits 31:16, bits 15:4 zero, CAUSE in bits 3:0 (R33). -/
def faultWord (cause : FaultCause) (cmd : Command) : Word :=
  cmd.setWidth 32 <<< 16 ||| (causeCode cause).setWidth 32

/-- `FAULT.CAUSE` of a FAULT word (R33). -/
def faultCauseField (v : Word) : BitVec 4 := v.extractLsb' 0 4

/-- `FAULT.CMD` of a FAULT word (R33). -/
def faultCmdField (v : Word) : Command := v.extractLsb' 16 16

/-- The flags that guard a register (R31). -/
inductive Guard where
  | calValid | rawValid | tfValid | toutValid | houtValid
  deriving DecidableEq, Repr

/-- The guard of each register (R31, R88). -/
def guardOf : Reg → Option Guard
  | .status => none
  | .fault => none
  | .diagcnt => none
  | .curT => none
  | .curH => none
  | .tOut => some .toutValid
  | .hOut => some .houtValid
  | .tFine => some .tfValid
  | .adcT => some .rawValid
  | .adcH => some .rawValid
  | .digT1 => some .calValid
  | .digT2 => some .calValid
  | .digT3 => some .calValid
  | .digP1 => some .calValid
  | .digP2 => some .calValid
  | .digP3 => some .calValid
  | .digP4 => some .calValid
  | .digP5 => some .calValid
  | .digP6 => some .calValid
  | .digP7 => some .calValid
  | .digP8 => some .calValid
  | .digP9 => some .calValid
  | .digH1 => some .calValid
  | .digH2 => some .calValid
  | .digH3 => some .calValid
  | .digH4 => some .calValid
  | .digH5 => some .calValid
  | .digH6 => some .calValid

/-- The value of a guard flag. -/
def guardFlag (s : State) : Guard → Bool
  | .calValid => s.calValid
  | .rawValid => s.rawValid
  | .tfValid => s.tfValid
  | .toutValid => s.toutValid
  | .houtValid => s.houtValid

/-- A register may be read: it has no guard, or its guard is 1 (R31). -/
def readable (s : State) (r : Reg) : Bool :=
  match guardOf r with
  | none => true
  | some g => guardFlag s g

end Sys2Proof.Machine
end

