-- ==== Sys2Proof/Machine/Ops.lean ====
section
/-!
DEFINITION. The named operations over memory and registers that the meanings share: the input buffer
(spec/20_memory.md R53, spec/00_scope.md R14), the register writes of the write matrix (spec/10_state.md R43), fault
entry and the faulted state (spec/60_exceptions.md R176, R177), reset (spec/70_reset_and_hazards.md R200), and the command
port (R37).
-/

namespace Sys2Proof.Machine

/-! ### The input buffer -/

/-- The content of a cell; `none` for an unwritten one (R53). -/
def memRead : Memory → Nat → Option Byte
  | [], _ => none
  | (b, v) :: rest, a => if b = a then some v else memRead rest a

/-- `IB[a] <- v`, keeping the cells in rising order of address (R14, R150). -/
def memWrite : Memory → Nat → Byte → Memory
  | [], a, v => [(a, v)]
  | (b, u) :: rest, a, v =>
    if a < b then (a, v) :: (b, u) :: rest
    else if a = b then (a, v) :: rest
    else (b, u) :: memWrite rest a v

/-- The canonical form of a memory: addresses strictly rising. An unlisted address holds no value (R53), so no entry can
equal what an unlisted address reads as. -/
def Memory.wf : Memory → Bool
  | [] => true
  | [_] => true
  | (a, _) :: (b, v) :: rest => decide (a < b) && Memory.wf ((b, v) :: rest)

/-- `IBrange(a, n)` (R14): the `n` bytes from cell `a` on, `none` if any is unwritten. -/
def ibRange (m : Memory) (a : Nat) : (n : Nat) → Option (Vector Byte n)
  | 0 => some #v[]
  | n + 1 =>
    match ibRange m a n, memRead m (a + n) with
    | some bytes, some b => some (bytes.push b)
    | _, _ => none

/-- `MemRead(a, 1)` as a command makes it: an unwritten cell raises UNINIT_INPUT (R14, R53). -/
def loadCell (m : Memory) (a : BitVec 6) : Except FaultCause Byte :=
  match memRead m a.toNat with
  | some b => .ok b
  | none => .error .uninitInput

/-- `IBrange(a, n)` as a command makes it: any unwritten cell raises UNINIT_INPUT (R14, R53). -/
def loadRange (m : Memory) (a : BitVec 6) (n : Nat) : Except FaultCause (Vector Byte n) :=
  match ibRange m a.toNat n with
  | some bytes => .ok bytes
  | none => .error .uninitInput

/-- A bus status byte reports failure: any value but 0x00 (R54, R75). -/
def statusFailed (b : Byte) : Bool := b != 0x00

/-! ### Register writes -/

def setIb (m : Memory) (s : State) : State :=
  { s with ib := m }

/-- `emit` (R14): one event on a port, recorded in the history (R37). -/
def emit (e : Event) (s : State) : State :=
  { s with history := s.history ++ [e] }

/-- `TF_VALID`, `TOUT_VALID` and `HOUT_VALID` cleared, as a new raw reading does (R115). -/
def clearResults (s : State) : State :=
  { s with tfValid := false, toutValid := false, houtValid := false }

/-- The session boundary of CALLD (R100 step 2, R106). -/
def endSession (s : State) : State :=
  clearResults { s with rawValid := false }

/-- The calibration file written as a whole by a successful CALLD (R100 step 3). -/
def loadCalibration (c : Calibration) (s : State) : State :=
  { s with cal := c, calValid := true, calErr := false }

/-- A failed CALLD (R100 step 3, R105): the calibration file becomes unspecified, a free value (log entry 5). -/
def loseCalibration (s : State) : State :=
  { s with cal := Config.freeCalibration s.fresh, fresh := s.fresh + 1, calValid := false, calErr := true }

/-- The raw reading written (R110, R141). -/
def storeRaw (t h : Word) (s : State) : State :=
  { s with adcT := t, adcH := h, rawValid := true }

/-- The results of the temperature compensation written (R120, R141). -/
def storeTemperature (t tFine : Word) (s : State) : State :=
  { s with tFine := tFine, tfValid := true, tOut := t, toutValid := true }

/-- The result of the humidity compensation written (R130, R141). -/
def storeHumidity (h : Word) (s : State) : State :=
  { s with hOut := h, houtValid := true }

/-- The current reading updated by a successful cycle (R141). -/
def publishReading (t h : Word) (s : State) : State :=
  { s with curT := t, curH := h, curValid := true }

/-- The current reading reset to zero by a failed cycle (R141, R144). -/
def zeroReading (s : State) : State :=
  { s with curT := 0, curH := 0, curValid := false }

/-- `LAST_FAIL <- b` (R30). -/
def setLastFail (b : Bool) (s : State) : State :=
  { s with lastFail := b }

/-- `DIAGCNT <- (DIAGCNT + 1) mod 2^32` (R34, R141). -/
def countDiag (s : State) : State :=
  { s with diagcnt := s.diagcnt + 1 }

/-- `PHASE <- b` (R140). -/
def setPhase (b : Bool) (s : State) : State :=
  { s with phase := b }

/-! ### Faults -/

/-- The three writes of fault entry (R176). -/
def recordFault (cause : FaultCause) (cmd : Command) (s : State) : State :=
  { s with fault := faultWord cause cmd, faulted := true }

/-- TAKING A FAULT (R176): the cause, the command word and FAULTED are written when FAULTED = 0, and nothing else
changes; the first fault is kept (R177). -/
def enterFault (cause : FaultCause) (cmd : Command) (s : State) : State :=
  if s.faulted then s else recordFault cause cmd s

/-- The three commands the faulted engine takes: RD STATUS, RD FAULT, SRST (R177). -/
def takenWhenFaulted : Instr → Bool
  | .calld => false
  | .acq => false
  | .tcomp => false
  | .hcomp => false
  | .cycle => false
  | .srst => true
  | .wrb _ _ => false
  | .rd reg => reg == regNumber .status || reg == regNumber .fault

/-- One command from its start to its end (R60, R179): dropped when the engine is faulted and the command is not one of
the three (R177); else its body runs whole, or raises a fault and has no other effect (R176). -/
def runCommand (i : Instr) (body : State → Except FaultCause State) (s : State) :
    Host.Outcome State Fault Refusal :=
  if s.faulted && !takenWhenFaulted i then .next s
  else
    match body s with
    | .ok t => .next t
    | .error cause => .next (enterFault cause (encode i) s)

/-- A reserved word (R84): ILLEGAL_CMD, or dropped in the faulted state (R177, R179). -/
def rejectWord (cw : Command) (s : State) : State :=
  enterFault .illegalCmd cw s

/-! ### Reset -/

/-- RETURNING FROM A FAULT, and every other use of SRST (R156, R178, R200): every flag, FAULT, DIAGCNT and the current
reading are 0, every cell is unwritten, and every guarded register becomes unspecified, a free value (log entry 5). -/
def resetEngine (s : State) : State :=
  { s with
    adcT := Config.freeWord s.fresh
    adcH := Config.freeWord (s.fresh + 1)
    tFine := Config.freeWord (s.fresh + 2)
    tOut := Config.freeWord (s.fresh + 3)
    hOut := Config.freeWord (s.fresh + 4)
    cal := Config.freeCalibration s.fresh
    fresh := s.fresh + 5
    curT := 0, curH := 0
    calValid := false, rawValid := false, tfValid := false, toutValid := false, houtValid := false
    curValid := false, lastFail := false, calErr := false, faulted := false, phase := false
    fault := 0, diagcnt := 0, ib := [] }

/-! ### The command port -/

/-- The port after its next word has been taken. -/
def setPending (rest : List Command) (s : State) : State :=
  { s with pending := rest }

/-- The word the host presents next, and the state in which it has been taken from the port (R37, R60). -/
def takeWord (s : State) : Option (Command × State) :=
  match s.pending with
  | [] => none
  | cw :: rest => some (cw, setPending rest s)

/-- The host presents `cw` before the words it has still to present (R37). -/
def presentWord (cw : Command) (s : State) : State :=
  setPending (cw :: s.pending) s

end Sys2Proof.Machine
end

