-- ==== Sys2Proof/Machine/Operands.lean ====
section
/-!
DEFINITION. Operand forms: the register operand of RD with `Val32` (spec/45_access_system.md R153, spec/30_encoding.md R88)
and the calibration constants as operands of the compensation formulas (spec/40_calibration.md R102).
-/

namespace Sys2Proof.Machine

/-! ### Calibration constants as i32 -/

/-- A calibration constant converted to i32 by value (R102): the unsigned ones zero-extended, the signed ones sign-extended
(R27). -/
def calWord (c : Calibration) : Config.CalConst → Word
  | .digT1 => zextWord c.digT1
  | .digT2 => sextWord c.digT2
  | .digT3 => sextWord c.digT3
  | .digP1 => zextWord c.digP1
  | .digP2 => sextWord c.digP2
  | .digP3 => sextWord c.digP3
  | .digP4 => sextWord c.digP4
  | .digP5 => sextWord c.digP5
  | .digP6 => sextWord c.digP6
  | .digP7 => sextWord c.digP7
  | .digP8 => sextWord c.digP8
  | .digP9 => sextWord c.digP9
  | .digH1 => zextWord c.digH1
  | .digH2 => sextWord c.digH2
  | .digH3 => zextWord c.digH3
  | .digH4 => sextWord c.digH4
  | .digH5 => sextWord c.digH5
  | .digH6 => sextWord c.digH6

def calT1 (c : Calibration) : Word := calWord c .digT1
def calT2 (c : Calibration) : Word := calWord c .digT2
def calT3 (c : Calibration) : Word := calWord c .digT3
def calH1 (c : Calibration) : Word := calWord c .digH1
def calH2 (c : Calibration) : Word := calWord c .digH2
def calH3 (c : Calibration) : Word := calWord c .digH3
def calH4 (c : Calibration) : Word := calWord c .digH4
def calH5 (c : Calibration) : Word := calWord c .digH5
def calH6 (c : Calibration) : Word := calWord c .digH6

/-- `Val32(x[reg])`: the pattern RD puts on the data-out port, sign-extended (`sx`) or zero-extended (`zx`) as R88 says. -/
def regValue (s : State) : Reg → Word
  | .status => statusWord s
  | .fault => s.fault
  | .diagcnt => s.diagcnt
  | .curT => s.curT
  | .curH => s.curH
  | .tOut => s.tOut
  | .hOut => s.hOut
  | .tFine => s.tFine
  | .adcT => s.adcT
  | .adcH => s.adcH
  | .digT1 => calWord s.cal .digT1
  | .digT2 => calWord s.cal .digT2
  | .digT3 => calWord s.cal .digT3
  | .digP1 => calWord s.cal .digP1
  | .digP2 => calWord s.cal .digP2
  | .digP3 => calWord s.cal .digP3
  | .digP4 => calWord s.cal .digP4
  | .digP5 => calWord s.cal .digP5
  | .digP6 => calWord s.cal .digP6
  | .digP7 => calWord s.cal .digP7
  | .digP8 => calWord s.cal .digP8
  | .digP9 => calWord s.cal .digP9
  | .digH1 => calWord s.cal .digH1
  | .digH2 => calWord s.cal .digH2
  | .digH3 => calWord s.cal .digH3
  | .digH4 => calWord s.cal .digH4
  | .digH5 => calWord s.cal .digH5
  | .digH6 => calWord s.cal .digH6

end Sys2Proof.Machine
end

