-- ==== Sys2Proof/Machine/Access.lean ====
section
/-!
DEFINITION. WRB, RD and SRST (spec/45_access_system.md R150 to R156).
-/

namespace Sys2Proof.Machine

/-- R150: an unassigned address raises ILLEGAL_ADDR; an assigned cell takes the byte. -/
def wrbBody (addr : BitVec 6) (data : Byte) (s : State) : Except FaultCause State :=
  if addrAssigned addr then .ok (setIb (memWrite s.ib addr.toNat data) s) else .error .illegalAddr

/-- R152: an unassigned number raises ILLEGAL_REG, a guard that is 0 UNINIT_READ; else one Out event. -/
def rdBody (reg : BitVec 6) (s : State) : Except FaultCause State :=
  match regOfNumber reg with
  | none => .error .illegalReg
  | some r => if readable s r then .ok (emit (.out (regValue s r)) s) else .error .uninitRead

/-- R156: nothing is checked; all state is reset. -/
def srstBody (s : State) : Except FaultCause State :=
  .ok (resetEngine s)

/-- WRB (R150). -/
def execWrb (addr : BitVec 6) (data : Byte) (s : State) : Host.Outcome State Fault Refusal :=
  runCommand (.wrb addr data) (wrbBody addr data) s

/-- RD (R152). -/
def execRd (reg : BitVec 6) (s : State) : Host.Outcome State Fault Refusal :=
  runCommand (.rd reg) (rdBody reg) s

/-- SRST (R156). -/
def execSrst (s : State) : Host.Outcome State Fault Refusal :=
  runCommand .srst srstBody s

end Sys2Proof.Machine
end

