-- ==== Sys2Proof/Machine/Calibration.lean ====
section
/-!
DEFINITION. CALLD: unpacking the 32 calibration bytes (spec/40_calibration.md R100 to R105, layouts of
spec/30_encoding.md R70 to R72).
-/

namespace Sys2Proof.Machine

/-- The packed 12-bit `dig_H4`: `(b3 << 4) | (b4 & 0x0F)`, 0..4095 (R103). -/
def packH4 (b3 b4 : Byte) : Nat := (b3.toNat <<< 4) ||| (b4.toNat &&& 0x0F)

/-- The packed 12-bit `dig_H5`: `(b4 << 4) | (b5 >> 4)`, 0..4095 (R103). -/
def packH5 (b4 b5 : Byte) : Nat := (b4.toNat <<< 4) ||| (b5.toNat >>> 4)

/-- A packed 12-bit value as the i16 register stores it: sign-extended from bit 11 under H45_SIGNED, else as it stands
(R103, R104). -/
def store12 (h45Signed : Bool) (h : Nat) : BitVec 16 :=
  if h45Signed then (BitVec.ofNat 12 h).signExtend 16 else BitVec.ofNat 16 h

/-- `Unpack(c1, c2)` (R101, R103). A sign-extended value and its pattern have the same 16 bits, so `zext_16` and `sext_16`
differ only in how the register is read (R102). -/
def unpack (h45Signed : Bool) (c1 : Vector Byte 25) (c2 : Vector Byte 7) : Calibration :=
  { digT1 := BitVec.ofNat 16 (le16 c1[0] c1[1])
    digT2 := BitVec.ofNat 16 (le16 c1[2] c1[3])
    digT3 := BitVec.ofNat 16 (le16 c1[4] c1[5])
    digP1 := BitVec.ofNat 16 (le16 c1[6] c1[7])
    digP2 := BitVec.ofNat 16 (le16 c1[8] c1[9])
    digP3 := BitVec.ofNat 16 (le16 c1[10] c1[11])
    digP4 := BitVec.ofNat 16 (le16 c1[12] c1[13])
    digP5 := BitVec.ofNat 16 (le16 c1[14] c1[15])
    digP6 := BitVec.ofNat 16 (le16 c1[16] c1[17])
    digP7 := BitVec.ofNat 16 (le16 c1[18] c1[19])
    digP8 := BitVec.ofNat 16 (le16 c1[20] c1[21])
    digP9 := BitVec.ofNat 16 (le16 c1[22] c1[23])
    digH1 := c1[24]
    digH2 := BitVec.ofNat 16 (le16 c2[0] c2[1])
    digH3 := c2[2]
    digH4 := store12 h45Signed (packH4 c2[3] c2[4])
    digH5 := store12 h45Signed (packH5 c2[4] c2[5])
    digH6 := c2[6] }

/-- R100 step 1, the status cells: read under CAL_FAIL_POLICY `error` only; the answer says whether a read failed (R105). -/
def calibrationReadFailed (s : State) : Except FaultCause Bool :=
  match s.params.calFailPolicy with
  | .silent => .ok false
  | .error =>
    match loadCell s.ib bstCal1 with
    | .error e => .error e
    | .ok s1 =>
      match loadCell s.ib bstCal2 with
      | .error e => .error e
      | .ok s2 => .ok (statusFailed s1 || statusFailed s2)

/-- R100, all three steps: every read before the first write. -/
def calldBody (s : State) : Except FaultCause State :=
  match calibrationReadFailed s with
  | .error e => .error e
  | .ok true => .ok (loseCalibration (endSession s))
  | .ok false =>
    match loadRange s.ib cal1Base 25 with
    | .error e => .error e
    | .ok c1 =>
      match loadRange s.ib cal2Base 7 with
      | .error e => .error e
      | .ok c2 => .ok (loadCalibration (unpack s.params.h45Signed c1 c2) (endSession s))

/-- CALLD (R100). -/
def execCalld (s : State) : Host.Outcome State Fault Refusal :=
  runCommand .calld calldBody s

end Sys2Proof.Machine
end

