-- ==== Sys2Proof/Machine/Acquisition.lean ====
section
/-!
DEFINITION. ACQ: the identity check and the raw decode (spec/41_acquisition.md R110 to R115). `acquire` is shared with CYCLE.
-/

namespace Sys2Proof.Machine

/-- `DecodeT(raw)`: the 20-bit temperature field, 0..1048575 (R112). -/
def decodeT (raw : Vector Byte 8) : Nat :=
  (raw[0].toNat <<< 12) ||| (raw[1].toNat <<< 4) ||| (raw[2].toNat >>> 4)

/-- `DecodeH(raw)`: the 16-bit humidity field, 0..65535 (R112). -/
def decodeH (raw : Vector Byte 8) : Nat :=
  (raw[6].toNat <<< 8) ||| raw[7].toNat

/-- `Acquire()` (R111): `none` is `Fail`, `some (t, h)` is `Ok(t, h)`. A cell is read only when control reaches its line,
and the three ways to fail are one outcome (R113). -/
def acquire (m : Memory) : Except FaultCause (Option (Word × Word)) :=
  match loadCell m bstId with
  | .error e => .error e
  | .ok sid =>
    if statusFailed sid then .ok none
    else
      match loadCell m idCell with
      | .error e => .error e
      | .ok id =>
        if id != chipIdExpected then .ok none
        else
          match loadCell m bstRaw with
          | .error e => .error e
          | .ok sraw =>
            if statusFailed sraw then .ok none
            else
              match loadRange m rawBase 8 with
              | .error e => .error e
              | .ok raw => .ok (some (BitVec.ofNat 32 (decodeT raw), BitVec.ofNat 32 (decodeH raw)))

/-- R110: a failure sets LAST_FAIL and nothing else (R114); a success starts a new cycle's data (R115). -/
def acqBody (s : State) : Except FaultCause State :=
  match acquire s.ib with
  | .error e => .error e
  | .ok none => .ok (setLastFail true s)
  | .ok (some (t, h)) => .ok (setLastFail false (clearResults (storeRaw t h s)))

/-- ACQ (R110). -/
def execAcq (s : State) : Host.Outcome State Fault Refusal :=
  runCommand .acq acqBody s

end Sys2Proof.Machine
end

