-- ==== Sys2Proof/Machine/Humidity.lean ====
section
/-!
DEFINITION. HCOMP: the humidity compensation (spec/43_humidity.md R130 to R135).
-/

namespace Sys2Proof.Machine

/-- The default HPOLY (R132), which the spec gives from general knowledge (PRESUMED, log entry 7). -/
def hpolyVendor (c : Calibration) (tFine adcH : Word) : Word :=
  let x := sub32 tFine 76800
  let p := sub32 (sub32 (shl32 adcH 14) (shl32 (calH4 c) 20)) (mul32 (calH5 c) x)
  let a := sar32 (add32 p 16384) 15
  let q1 := sar32 (mul32 x (calH6 c)) 10
  let q2 := add32 (sar32 (mul32 x (calH3 c)) 11) 32768
  let q := add32 (sar32 (mul32 q1 q2) 10) 2097152
  let b := sar32 (add32 (mul32 q (calH2 c)) 8192) 14
  let v := mul32 a b
  let s := sar32 v 15
  let k := sar32 (mul32 (sar32 (mul32 s s) 7) (calH1 c)) 4
  sub32 v k

/-- The value of an expression for HPOLY on its three arguments (R8), every operator an i32 primitive of R11. -/
def polyValue (c : Calibration) (tFine adcH : Word) : Config.PolyExpr → Word
  | .const w => w
  | .tFine => tFine
  | .adcH => adcH
  | .cal k => calWord c k
  | .add a b => add32 (polyValue c tFine adcH a) (polyValue c tFine adcH b)
  | .sub a b => sub32 (polyValue c tFine adcH a) (polyValue c tFine adcH b)
  | .mul a b => mul32 (polyValue c tFine adcH a) (polyValue c tFine adcH b)
  | .shl a n => shl32 (polyValue c tFine adcH a) n
  | .sar a n => sar32 (polyValue c tFine adcH a) n
  | .ifEq a b yes no =>
    if polyValue c tFine adcH a = polyValue c tFine adcH b then polyValue c tFine adcH yes else polyValue c tFine adcH no

/-- The humidity polynomial the parameter HPOLY is (R8, R132). -/
def hpoly (which : Config.HPoly) (c : Calibration) (tFine adcH : Word) : Word :=
  match which with
  | .vendorChain => hpolyVendor c tFine adcH
  | .uninterpreted => Config.hpolyFree c tFine adcH
  | .given e => polyValue c tFine adcH e

/-- The clamp and the final shift (R133, R134), both comparisons signed. -/
def clampShift (v : Word) : Word :=
  sar32 (wrap32 (clampInt v.toInt hClampMin hClampMax)) 12

/-- `HumComp` (R131). -/
def humComp (which : Config.HPoly) (c : Calibration) (tFine adcH : Word) : Word :=
  clampShift (hpoly which c tFine adcH)

/-- R130: CAL_INVALID, RAW_INVALID and TFINE_INVALID are tested in this order. -/
def hcompBody (s : State) : Except FaultCause State :=
  if !s.calValid then .error .calInvalid
  else if !s.rawValid then .error .rawInvalid
  else if !s.tfValid then .error .tfineInvalid
  else .ok (storeHumidity (humComp s.params.hpoly s.cal s.tFine s.adcH) s)

/-- HCOMP (R130). -/
def execHcomp (s : State) : Host.Outcome State Fault Refusal :=
  runCommand .hcomp hcompBody s

end Sys2Proof.Machine
end

