-- ==== Sys2Proof/Machine/Temperature.lean ====
section
/-!
DEFINITION. TCOMP: the temperature compensation (spec/42_temperature.md R120 to R124).
-/

namespace Sys2Proof.Machine

/-- `TempComp` (R121): the pair `(T, t_fine)`, every operator an i32 primitive of R11. -/
def tempComp (digT1 digT2 digT3 adcT : Word) : Word × Word :=
  let a := sub32 (sar32 adcT 3) (shl32 digT1 1)
  let var1 := sar32 (mul32 a digT2) 11
  let b := sub32 (sar32 adcT 4) digT1
  let sq := mul32 b b
  let var2 := sar32 (mul32 (sar32 sq 12) digT3) 14
  let tFine := add32 var1 var2
  let t := sar32 (add32 (mul32 tFine 5) 128) 8
  (t, tFine)

/-- `TempComp` on the constants of a calibration set (R102). -/
def tempCompCal (c : Calibration) (adcT : Word) : Word × Word :=
  tempComp (calT1 c) (calT2 c) (calT3 c) adcT

/-- R120: CAL_INVALID is tested first, then RAW_INVALID. -/
def tcompBody (s : State) : Except FaultCause State :=
  if !s.calValid then .error .calInvalid
  else if !s.rawValid then .error .rawInvalid
  else .ok (storeTemperature (tempCompCal s.cal s.adcT).1 (tempCompCal s.cal s.adcT).2 s)

/-- TCOMP (R120). -/
def execTcomp (s : State) : Host.Outcome State Fault Refusal :=
  runCommand .tcomp tcompBody s

end Sys2Proof.Machine
end

