-- ==== Sys2Proof/Machine/Cycle.lean ====
section
/-!
DEFINITION. CYCLE: the acquisition cycle (spec/44_cycle.md R140 to R146).
-/

namespace Sys2Proof.Machine

/-- The failure path of R141: the reading zeroed, the failure flagged and counted, one Diag (R143, R144). -/
def cycleFailed (s : State) : State :=
  emit .diag (countDiag (setLastFail true (zeroReading s)))

/-- The success path of R141 on the raw reading `(t, h)`: temperature before humidity, on the same `t_fine` (R142). -/
def cycleSucceeded (t h : Word) (s : State) : State :=
  let temp := tempCompCal s.cal t
  let hum := humComp s.params.hpoly s.cal temp.2 h
  setLastFail false
    (publishReading temp.1 hum (storeHumidity hum (storeTemperature temp.1 temp.2 (storeRaw t h s))))

/-- R141: CAL_VALID before anything else, then Acquire, then the writes between PHASE = 1 and PHASE = 0 (R140). -/
def cycleBody (s : State) : Except FaultCause State :=
  if !s.calValid then .error .calInvalid
  else
    match acquire s.ib with
    | .error e => .error e
    | .ok none => .ok (setPhase false (cycleFailed (setPhase true s)))
    | .ok (some (t, h)) => .ok (setPhase false (cycleSucceeded t h (setPhase true s)))

/-- CYCLE (R141). -/
def execCycle (s : State) : Host.Outcome State Fault Refusal :=
  runCommand .cycle cycleBody s

end Sys2Proof.Machine
end

