-- ==== Sys2Proof/Machine/Dispatch.lean ====
section
/-!
DEFINITION. One arm per command (spec/30_encoding.md R83), each a direct call of its meaning.
-/

namespace Sys2Proof.Machine

def exec (i : Instr) (s : State) : Host.Outcome State Fault Refusal :=
  match i with
  | .calld => Sys2Proof.Machine.execCalld s
  | .acq => Sys2Proof.Machine.execAcq s
  | .tcomp => Sys2Proof.Machine.execTcomp s
  | .hcomp => Sys2Proof.Machine.execHcomp s
  | .cycle => Sys2Proof.Machine.execCycle s
  | .srst => Sys2Proof.Machine.execSrst s
  | .wrb addr data => Sys2Proof.Machine.execWrb addr data s
  | .rd reg => Sys2Proof.Machine.execRd reg s

end Sys2Proof.Machine
end

