-- ==== Sys2Proof/Machine/Step.lean ====
section
/-!
DEFINITION. One step: the engine takes the word the host presents next and performs the whole of its rule
(spec/20_memory.md R60, spec/10_state.md R40). With no word on the port it waits (spec/70_reset_and_hazards.md R201; log
entry 2).
-/

namespace Sys2Proof.Machine

def step (s : State) : Host.Outcome State Fault Refusal :=
  match takeWord s with
  | none => .next s
  | some (cw, s') =>
    match decode cw with
    | .ok i => exec i s'
    | .error _ => .next (rejectWord cw s')

/-- `s` with the word numbered as the opcode table numbers it presented next on the command port. -/
def State.withFetchWord (s : State) (nbits w : Nat) : State :=
  presentWord (BitVec.ofNat 16 (w % 2 ^ nbits)) s

end Sys2Proof.Machine
end

