-- ==== Sys2Proof/Machine/Assembler.lean ====
section
/-!
DEFINITION. The textual form of commands and the pseudo-commands (spec/30_encoding.md R90, R91). It is the host's side:
what comes out is a list of commands for the command port.
-/

namespace Sys2Proof.Machine

/-! ### Pseudo-commands (R91) -/

/-- `RDT`. -/
def rdt : Instr := .rd (regNumber .curT)

/-- `RDH`. -/
def rdh : Instr := .rd (regNumber .curH)

/-- `FILL base, b0, b1, ...`. R91 does not say what a FILL past address 0x3F expands to; here the address goes on at 0x00, and
the textual form (`assembleLine`) has no such line (DESIGN CHOICE, log entry 17). -/
def fill : BitVec 6 → List Byte → List Instr
  | _, [] => []
  | base, b :: bytes => .wrb base b :: fill (base + 1) bytes

/-- `INIT`, what the engine sees of it, on the bytes of the two calibration blocks; lists longer than a block run on as in
`fill` (log entry 17). -/
def init (cal1 cal2 : List Byte) : List Instr :=
  fill cal1Base cal1 ++ Instr.wrb bstCal1 0 :: (fill cal2Base cal2 ++ [Instr.wrb bstCal2 0, Instr.calld])

/-! ### Text (R90) -/

/-- A line up to its comment. -/
def dropComment : List Char → List Char
  | [] => []
  | c :: cs => if c = ';' then [] else c :: dropComment cs

/-- The words of a line: separated by spaces, tabs and commas. `cur` is the word being read, reversed. -/
def splitWords : List Char → List Char → List (List Char)
  | [], cur => if cur.isEmpty then [] else [cur.reverse]
  | c :: cs, cur =>
    if c = ' ' || c = '\t' || c = ',' then
      if cur.isEmpty then splitWords cs [] else cur.reverse :: splitWords cs []
    else splitWords cs (c :: cur)

/-- A digit in base 10 or 16. -/
def digitValue (base : Nat) (c : Char) : Option Nat :=
  let n := c.toNat
  let v :=
    if 48 ≤ n ∧ n ≤ 57 then n - 48
    else if 65 ≤ n ∧ n ≤ 70 then n - 55
    else if 97 ≤ n ∧ n ≤ 102 then n - 87
    else base
  if v < base then some v else none

/-- A run of digits, the most significant first. -/
def parseDigits (base : Nat) : List Char → Nat → Option Nat
  | [], acc => some acc
  | c :: cs, acc =>
    match digitValue base c with
    | some d => parseDigits base cs (acc * base + d)
    | none => none

/-- A number: decimal, or hexadecimal with `0x`. -/
def parseNumber : List Char → Option Nat
  | [] => none
  | '0' :: 'x' :: d :: ds => parseDigits 16 (d :: ds) 0
  | cs => parseDigits 10 cs 0

/-- The names of the assigned cells (R51): the first cell and how many cells the name covers. -/
def cellNames : List (String × BitVec 6 × Nat) :=
  [("CAL1", cal1Base, cal1Len), ("CAL2", cal2Base, cal2Len), ("ID", idCell, 1), ("RAW", rawBase, rawLen)]
    ++ [("BST_CAL1", bstCal1, 1), ("BST_CAL2", bstCal2, 1), ("BST_ID", bstId, 1), ("BST_RAW", bstRaw, 1)]

/-- The name of a register (R88). -/
def regName : Reg → String
  | .status => "STATUS" | .fault => "FAULT" | .diagcnt => "DIAGCNT"
  | .curT => "CUR_T" | .curH => "CUR_H" | .tOut => "T_OUT" | .hOut => "H_OUT"
  | .tFine => "T_FINE" | .adcT => "ADC_T" | .adcH => "ADC_H"
  | .digT1 => "dig_T1" | .digT2 => "dig_T2" | .digT3 => "dig_T3"
  | .digP1 => "dig_P1" | .digP2 => "dig_P2" | .digP3 => "dig_P3" | .digP4 => "dig_P4" | .digP5 => "dig_P5"
  | .digP6 => "dig_P6" | .digP7 => "dig_P7" | .digP8 => "dig_P8" | .digP9 => "dig_P9"
  | .digH1 => "dig_H1" | .digH2 => "dig_H2" | .digH3 => "dig_H3" | .digH4 => "dig_H4" | .digH5 => "dig_H5"
  | .digH6 => "dig_H6"

/-- The word before an index, and the characters of the index if there is one: `CAL1[3]` is `CAL1` and `3`. -/
def splitIndex : List Char → List Char → Option (List Char × Option (List Char))
  | [], name => some (name.reverse, none)
  | c :: cs, name =>
    if c = '[' then
      match cs.reverse with
      | ']' :: ds => some (name.reverse, some ds.reverse)
      | _ => none
    else splitIndex cs (c :: name)

/-- An address operand: a number below 64, or a name of R51, optionally indexed within its block. -/
def parseAddr (cs : List Char) : Option (BitVec 6) :=
  match parseNumber cs with
  | some n => if n < 64 then some (BitVec.ofNat 6 n) else none
  | none =>
    match splitIndex cs [] with
    | none => none
    | some (name, index) =>
      match cellNames.find? fun row => row.1.toList == name with
      | none => none
      | some (_, base, size) =>
        match index with
        | none => some base
        | some ds =>
          match parseNumber ds with
          | some i => if i < size then some (base + BitVec.ofNat 6 i) else none
          | none => none

/-- A register operand: a number below 64 or a name of R88. -/
def parseReg (cs : List Char) : Option (BitVec 6) :=
  match parseNumber cs with
  | some n => if n < 64 then some (BitVec.ofNat 6 n) else none
  | none =>
    match allRegs.find? fun r => (regName r).toList == cs with
    | some r => some (regNumber r)
    | none => none

/-- A byte operand. -/
def parseByte (cs : List Char) : Option Byte :=
  match parseNumber cs with
  | some n => if n < 256 then some (BitVec.ofNat 8 n) else none
  | none => none

/-- A list of byte operands. -/
def parseBytes : List (List Char) → Option (List Byte)
  | [] => some []
  | w :: ws =>
    match parseByte w, parseBytes ws with
    | some b, some bs => some (b :: bs)
    | _, _ => none

/-- One line of text: the commands it stands for, `none` for a line that is not of R90 or R91. A FILL that would run past
address 0x3F, of which R91 says nothing, is none of them, and an empty line is no command (DESIGN CHOICE, log entry 17). -/
def assembleLine (line : String) : Option (List Instr) :=
  match splitWords (dropComment line.toList) [] with
  | [] => some []
  | m :: operands =>
    if m = "CALLD".toList then if operands.isEmpty then some [.calld] else none
    else if m = "ACQ".toList then if operands.isEmpty then some [.acq] else none
    else if m = "TCOMP".toList then if operands.isEmpty then some [.tcomp] else none
    else if m = "HCOMP".toList then if operands.isEmpty then some [.hcomp] else none
    else if m = "CYCLE".toList then if operands.isEmpty then some [.cycle] else none
    else if m = "SRST".toList then if operands.isEmpty then some [.srst] else none
    else if m = "RDT".toList then if operands.isEmpty then some [rdt] else none
    else if m = "RDH".toList then if operands.isEmpty then some [rdh] else none
    else if m = "WRB".toList then
      match operands with
      | [a, d] =>
        match parseAddr a, parseByte d with
        | some addr, some data => some [.wrb addr data]
        | _, _ => none
      | _ => none
    else if m = "RD".toList then
      match operands with
      | [r] =>
        match parseReg r with
        | some reg => some [.rd reg]
        | none => none
      | _ => none
    else if m = "FILL".toList then
      match operands with
      | a :: ds =>
        match parseAddr a, parseBytes ds with
        | some addr, some bytes =>
          if bytes.isEmpty || decide (64 < addr.toNat + bytes.length) then none else some (fill addr bytes)
        | _, _ => none
      | [] => none
    else none

end Sys2Proof.Machine
end

