-- ==== Sys2Proof/Machine/View.lean ====
section
/-!
DEFINITION. What the host makes of the engine's outputs: the float view of the reading (spec/45_access_system.md R157 to
R159, parameter FLOAT_FMT) and the diagnostic text (spec/44_cycle.md R143, parameter DIAG_TEXT). No rule of the engine
depends on it (R157).
-/

namespace Sys2Proof.Machine

/-- `TempC = CUR_T / 100` as an exact rational (R157). -/
def exactTempC (s : State) : ℚ := (s.curT.toInt : ℚ) / 100

/-- `RH = CUR_H / 1024` as an exact rational (R157). -/
def exactRH (s : State) : ℚ := (s.curH.toNat : ℚ) / 1024

/-- The exponent `e` with `2^e ≤ num / den < 2^(e+1)`, for a positive quotient. -/
def quotientExponent (num den : Nat) : Int :=
  (Nat.log2 (num * 2 ^ (Nat.log2 den + 1) / den) : Int) - (Nat.log2 den + 1)

/-- The quotient `num / den` rounded to an integer by a rounding rule; `neg` is the sign of the number it belongs to. -/
def roundQuotient (rule : Config.Rounding) (neg : Bool) (num den : Nat) : Nat :=
  let q := num / den
  let r := num % den
  let up : Bool :=
    match rule with
    | .nearestEven => decide (den < 2 * r) || (decide (2 * r = den) && decide (q % 2 = 1))
    | .towardZero => false
    | .towardPositive => decide (r ≠ 0) && !neg
    | .towardNegative => decide (r ≠ 0) && neg
  if up then q + 1 else q

/-- The bias of the exponent field. -/
def floatBias (fmt : Config.FloatLayout) : Nat := 2 ^ (fmt.expBits - 1) - 1

/-- The pattern of infinity without its sign. -/
def floatInf (fmt : Config.FloatLayout) : Nat := (2 ^ fmt.expBits - 1) * 2 ^ (fmt.precision - 1)

/-- A pattern past the largest finite one: infinity, or the largest finite number where the rule rounds away from it. -/
def floatOverflow (fmt : Config.FloatLayout) (neg : Bool) : Nat :=
  match fmt.rounding with
  | .nearestEven => floatInf fmt
  | .towardZero => floatInf fmt - 1
  | .towardPositive => if neg then floatInf fmt - 1 else floatInf fmt
  | .towardNegative => if neg then floatInf fmt else floatInf fmt - 1

/-- The pattern without its sign of `num / den` rounded once into a format, for a number of sign `neg`. The layout exponent,
fraction is IEEE 754's (PRESUMED, log entry 8). -/
def roundMagnitude (fmt : Config.FloatLayout) (neg : Bool) (num den : Nat) : Nat :=
  if num = 0 then 0
  else
    let emin : Int := 1 - floatBias fmt
    let e := max (quotientExponent num den) emin
    let scale : Int := (fmt.precision : Int) - 1 - e
    let sig := roundQuotient fmt.rounding neg (num * 2 ^ scale.toNat) (den * 2 ^ (-scale).toNat)
    let mag := (e - emin).toNat * 2 ^ (fmt.precision - 1) + sig
    if mag < floatInf fmt then mag else floatOverflow fmt neg

/-- The significand of a pattern without its sign. -/
def floatSig (fmt : Config.FloatLayout) (mag : Nat) : Nat :=
  let frac := mag % 2 ^ (fmt.precision - 1)
  if mag / 2 ^ (fmt.precision - 1) = 0 then frac else 2 ^ (fmt.precision - 1) + frac

/-- The exponent of the last bit of that significand. -/
def floatUlp (fmt : Config.FloatLayout) (mag : Nat) : Int :=
  1 - (floatBias fmt : Int) - fmt.precision + max (mag / 2 ^ (fmt.precision - 1) : Nat) 1

/-- A pattern without its sign of one format, rounded into another; infinity stays infinity. -/
def narrowMagnitude (wide fmt : Config.FloatLayout) (neg : Bool) (mag : Nat) : Nat :=
  if floatInf wide ≤ mag then floatInf fmt
  else
    let k := floatUlp wide mag
    roundMagnitude fmt neg (floatSig wide mag * 2 ^ k.toNat) (2 ^ (-k).toNat)

/-- The pattern without its sign of a quotient as FLOAT_FMT rounds it: once, or through the wider format (R159, D21). -/
def quotientMagnitude (fmt : Config.FloatFmt) (neg : Bool) (num den : Nat) : Nat :=
  match fmt.wider with
  | none => roundMagnitude fmt.toFloatLayout neg num den
  | some wide => narrowMagnitude wide fmt.toFloatLayout neg (roundMagnitude wide neg num den)

/-- The bit pattern of `num / den` as FLOAT_FMT renders it (R159); zero is +0.0 in every format. The sign is the topmost bit
(PRESUMED, log entry 8). -/
def renderFloat (fmt : Config.FloatFmt) (num : Int) (den : Nat) : Nat :=
  if num = 0 then 0
  else if num < 0 then 2 ^ (fmt.expBits + fmt.precision - 1) + quotientMagnitude fmt true num.natAbs den
  else quotientMagnitude fmt false num.natAbs den

/-- The rational a finite bit pattern of a format stands for. -/
def floatValue (fmt : Config.FloatLayout) (pat : Nat) : ℚ :=
  let mag := pat % 2 ^ (fmt.precision - 1 + fmt.expBits)
  let value : ℚ := (floatSig fmt mag : ℚ) * 2 ^ floatUlp fmt mag
  if pat / 2 ^ (fmt.precision - 1 + fmt.expBits) % 2 = 1 then -value else value

/-- The temperature as the host's float (R159). -/
def floatTempC (s : State) : Nat := renderFloat s.params.floatFmt s.curT.toInt 100

/-- The humidity as the host's float (R158). -/
def floatRH (s : State) : Nat := renderFloat s.params.floatFmt s.curH.toNat 1024

/-- The texts the host has written to its output sink, one for each Diag (R143); none where it has no DIAG_TEXT (R8). -/
def diagTexts (s : State) : List (List Byte) :=
  match s.params.diagText with
  | none => []
  | some text =>
    s.history.filterMap fun e =>
      match e with
      | .diag => some text
      | .out _ => none

end Sys2Proof.Machine
end

