-- ==== Sys2Proof/Safety.lean ====
section
/-!
DEFINITION. What counts as a safe run, and the predicates the statements are written in: the invariants of the engine,
what it means to be in the reset state, and when two states cannot be told apart by any command.
-/

namespace Sys2Proof.Machine

/-- A run that ends with `FAULTED = 1` has gone wrong (spec/70_reset_and_hazards.md R212). -/
def goneWrong (s : State) : Bool := s.faulted

/-- The input buffer is in canonical form, and only cells R51 assigns are ever written (R52). -/
structure MemoryInv (s : State) : Prop where
  canonical : Memory.wf s.ib = true
  assigned : ∀ a b, memRead s.ib a = some b → ∃ c : BitVec 6, c.toNat = a ∧ addrAssigned c = true

/-- The sequencer is in Idle between commands (R140), and FAULT is 0 until a fault and then a cause of R175 with a command
word and zero reserved bits (R33, R176). -/
structure FaultInv (s : State) : Prop where
  idle : s.phase = false
  clear : s.faulted = false → s.fault = 0
  recorded : s.faulted = true → ∃ cause cw, s.fault = faultWord cause cw

/-- What the validity flags promise of the registers (R21, R27, R30, R32, R103). -/
structure ReadingInv (s : State) : Prop where
  rawRange : s.rawValid = true → s.adcT.toNat < 2 ^ 20 ∧ s.adcH.toNat < 2 ^ 16
  together : s.tfValid = s.toutValid
  temperature : s.tfValid = true →
    s.calValid = true ∧ s.rawValid = true ∧ tempCompCal s.cal s.adcT = (s.tOut, s.tFine)
  humidity : s.houtValid = true →
    s.tfValid = true ∧ s.hOut = humComp s.params.hpoly s.cal s.tFine s.adcH
  currentRange : s.curH.toNat ≤ 102400
  placeholder : s.curValid = false → s.curT = 0 ∧ s.curH = 0
  calError : s.calErr = true → s.calValid = false
  packedUnsigned : s.calValid = true → s.params.h45Signed = false →
    s.cal.digH4.toNat < 4096 ∧ s.cal.digH5.toNat < 4096
  packedSigned : s.calValid = true → s.params.h45Signed = true →
    (-2048 ≤ s.cal.digH4.toInt ∧ s.cal.digH4.toInt ≤ 2047) ∧ (-2048 ≤ s.cal.digH5.toInt ∧ s.cal.digH5.toInt ≤ 2047)
  sharedNibble : s.calValid = true → s.cal.digH4.extractLsb' 0 4 = s.cal.digH5.extractLsb' 4 4

/-- The reset state of R42: everything R42 gives a value has it, every cell is unwritten, and the guarded registers are
unspecified, so nothing is said of them. -/
structure IsReset (s : State) : Prop where
  calValid : s.calValid = false
  rawValid : s.rawValid = false
  tfValid : s.tfValid = false
  toutValid : s.toutValid = false
  houtValid : s.houtValid = false
  curValid : s.curValid = false
  lastFail : s.lastFail = false
  calErr : s.calErr = false
  faulted : s.faulted = false
  phase : s.phase = false
  status : statusWord s = 0
  fault : s.fault = 0
  diagcnt : s.diagcnt = 0
  curT : s.curT = 0
  curH : s.curH = 0
  unwritten : ∀ a, memRead s.ib a = none

/-- Two states agree on everything but guarded registers whose guard is 0 (R31) and the model's counter of free values. -/
structure SameObservable (s t : State) : Prop where
  calValid : s.calValid = t.calValid
  rawValid : s.rawValid = t.rawValid
  tfValid : s.tfValid = t.tfValid
  toutValid : s.toutValid = t.toutValid
  houtValid : s.houtValid = t.houtValid
  curValid : s.curValid = t.curValid
  lastFail : s.lastFail = t.lastFail
  calErr : s.calErr = t.calErr
  faulted : s.faulted = t.faulted
  phase : s.phase = t.phase
  fault : s.fault = t.fault
  diagcnt : s.diagcnt = t.diagcnt
  curT : s.curT = t.curT
  curH : s.curH = t.curH
  ib : s.ib = t.ib
  params : s.params = t.params
  pending : s.pending = t.pending
  history : s.history = t.history
  cal : s.calValid = true → s.cal = t.cal
  adcT : s.rawValid = true → s.adcT = t.adcT
  adcH : s.rawValid = true → s.adcH = t.adcH
  tFine : s.tfValid = true → s.tFine = t.tFine
  tOut : s.toutValid = true → s.tOut = t.tOut
  hOut : s.houtValid = true → s.hOut = t.hOut

/-- What a fault with a code of R175 leaves: the three writes of R176 and nothing else. -/
def faultedWith (code : BitVec 4) (cw : Command) (s : State) : State :=
  { s with fault := cw.setWidth 32 <<< 16 ||| code.setWidth 32, faulted := true }

/-- Every cell from `a` to `a + bytes.size - 1` holds its byte of the list (R51). -/
def cellsHold {n : Nat} (m : Memory) (a : Nat) (bytes : Vector Byte n) : Prop :=
  ∀ k, (h : k < n) → memRead m (a + k) = some bytes[k]

/-- Some cell from `a` to `a + n - 1` is unwritten (R53). -/
def someUnwritten (m : Memory) (a n : Nat) : Prop :=
  ∃ k, k < n ∧ memRead m (a + k) = none

/-- The columns of R88 for a state: number, whether the guard lets it be read, and the 32-bit pattern on the port, `sx` as
`signExtend` and `zx` as `setWidth`. -/
def readTable (s : State) : List (BitVec 6 × Bool × Word) :=
  [(0x00, true, statusWord s), (0x01, true, s.fault), (0x02, true, s.diagcnt),
   (0x04, true, s.curT), (0x05, true, s.curH), (0x06, s.toutValid, s.tOut), (0x07, s.houtValid, s.hOut),
   (0x08, s.tfValid, s.tFine), (0x09, s.rawValid, s.adcT), (0x0A, s.rawValid, s.adcH)]
  ++ [(0x10, s.calValid, s.cal.digT1.setWidth 32), (0x11, s.calValid, s.cal.digT2.signExtend 32),
   (0x12, s.calValid, s.cal.digT3.signExtend 32), (0x13, s.calValid, s.cal.digP1.setWidth 32),
   (0x14, s.calValid, s.cal.digP2.signExtend 32), (0x15, s.calValid, s.cal.digP3.signExtend 32),
   (0x16, s.calValid, s.cal.digP4.signExtend 32), (0x17, s.calValid, s.cal.digP5.signExtend 32),
   (0x18, s.calValid, s.cal.digP6.signExtend 32), (0x19, s.calValid, s.cal.digP7.signExtend 32),
   (0x1A, s.calValid, s.cal.digP8.signExtend 32), (0x1B, s.calValid, s.cal.digP9.signExtend 32)]
  ++ [(0x1C, s.calValid, s.cal.digH1.setWidth 32), (0x1D, s.calValid, s.cal.digH2.signExtend 32),
   (0x1E, s.calValid, s.cal.digH3.setWidth 32), (0x1F, s.calValid, s.cal.digH4.signExtend 32),
   (0x20, s.calValid, s.cal.digH5.signExtend 32), (0x21, s.calValid, s.cal.digH6.signExtend 32)]

end Sys2Proof.Machine
end

