-- ==== Sys2Proof/Certificates/Slice0/Obligations.lean ====
section
/-!
DEFINITION. The statements for the provers, in the order of OBLIGATIONS.json. A next state is written as the state before
with the fields that change, so each such statement is also the frame: every other field is as it was.
-/

open Sys2Proof Sys2Proof.Machine

/-! ### Encoding and the command port -/

/-- Decoding the word of any command gives the command, at every operand value (R82, R83, R86). -/
def Obligations.DecodeOfEncode : Prop :=
  ∀ i : Instr, decode (encode i) = .ok i

/-- Every word that decodes is the word of the command it decodes to: no legal word has a bit the decoder ignores (R82). -/
def Obligations.EncodeOfDecode : Prop :=
  ∀ (cw : Command) (i : Instr), decode cw = .ok i → encode i = cw

/-- The reserved words are those of the table of R84. -/
def Obligations.ReservedWordsAreTheTable : Prop :=
  ∀ cw : Command, (∃ e, decode cw = .error e) ↔
    cw.toNat = 0
      ∨ (∃ f, 6 ≤ f ∧ f ≤ 14 ∧ cw.toNat = f * 0x100)
      ∨ (cw.toNat ≤ 0x0FFF ∧ cw.toNat % 256 ≠ 0)
      ∨ (0x1000 ≤ cw.toNat ∧ cw.toNat ≤ 0x3FFF)
      ∨ (0x8040 ≤ cw.toNat ∧ cw.toNat ≤ 0x8FFF)
      ∨ 0x9000 ≤ cw.toNat

/-- One word of each row of R83, written out from its encoding column. -/
def Obligations.SampleWordsDecode : Prop :=
  decode 0b0000000100000000 = .ok .calld
    ∧ decode 0b0000001000000000 = .ok .acq
    ∧ decode 0b0000001100000000 = .ok .tcomp
    ∧ decode 0b0000010000000000 = .ok .hcomp
    ∧ decode 0b0000010100000000 = .ok .cycle
    ∧ decode 0b0000111100000000 = .ok .srst
    ∧ decode 0b0110100001100000 = .ok (.wrb 0x28 0x60)
    ∧ decode 0b1000000000000100 = .ok (.rd 0x04)

/-- Lines of the textual form and the words R90, R91 and R150 give them. -/
def Obligations.SampleLinesAssemble : Prop :=
  (assembleLine "CALLD").map (List.map encode) = some [0x0100]
    ∧ (assembleLine "WRB  ID, 0x60 ; the identity").map (List.map encode) = some [0x6860]
    ∧ (assembleLine "WRB CAL2[4], 39").map (List.map encode) = some [0x6427]
    ∧ (assembleLine "RDT").map (List.map encode) = some [0x8004]
    ∧ (assembleLine "RDH").map (List.map encode) = some [0x8005]
    ∧ (assembleLine "RD dig_H6").map (List.map encode) = some [0x8021]
    ∧ (assembleLine "FILL RAW, 0x7E, 0xED").map (List.map encode) = some [0x707E, 0x71ED]

/-- A step takes the next word from the port and runs the command it decodes to, in the state in which the word has been
taken and nothing else has changed (R37, R60). The port is the model's list of words still to come (log entry 2). -/
def Obligations.StepRunsDecodedCommand : Prop :=
  ∀ (s : State) (cw : Command) (rest : List Command) (i : Instr),
    s.pending = cw :: rest → decode cw = .ok i → step s = exec i { s with pending := rest }

/-- With no word on the port the engine waits: nothing changes (R40, R201; the model's choice of log entry 2). -/
def Obligations.StepWaitsWithoutWord : Prop :=
  ∀ s : State, s.pending = [] → step s = .next s

/-- A reserved word raises ILLEGAL_CMD, code 1, with the word in CMD and no other effect (R82, R84, R175, R176). -/
def Obligations.ReservedWordRaisesIllegalCmd : Prop :=
  ∀ (s : State) (cw : Command) (rest : List Command) (e : ReservedWord),
    s.faulted = false → s.pending = cw :: rest → decode cw = .error e →
      step s = .next (faultedWith 1 cw { s with pending := rest })

/-- Every command, and every step, answers a next state in every state (R211). That a step with no word on the port is one that
answers the same state is the model's choice (DESIGN CHOICE, log entry 2), and that the model never stops is read from R176,
R177 and R211 (DEDUCED, log entry 12). -/
def Obligations.EveryCommandEnds : Prop :=
  (∀ (i : Instr) (s : State), ∃ t, exec i s = .next t) ∧ ∀ s : State, ∃ t, step s = .next t

/-! ### Faults and the faulted state -/

/-- A word that raises a fault, legal or reserved, makes the three writes of R176, with a code of R175 and the word itself in
CMD, and no other: no register, no cell, no event. -/
def Obligations.FaultsArePrecise : Prop :=
  ∀ (s t : State) (cw : Command) (rest : List Command), s.faulted = false → s.pending = cw :: rest →
    step s = .next t → t.faulted = true →
    ∃ code : BitVec 4, 1 ≤ code.toNat ∧ code.toNat ≤ 8 ∧ t = faultedWith code cw { s with pending := rest }

/-- The faulted engine takes RD STATUS, RD FAULT and SRST; every other word, legal or reserved, is dropped (R177). That SRST
keeps the history is the model's reading of program P3 (DEDUCED, log entry 3); the port is the model's list (log entry 2). -/
def Obligations.FaultedEngineTakesThreeCommands : Prop :=
  ∀ (s : State) (cw : Command) (rest : List Command), s.faulted = true → s.pending = cw :: rest →
    (cw = 0x8000 → step s = .next { s with pending := rest, history := s.history ++ [.out (statusWord s)] })
      ∧ (cw = 0x8001 → step s = .next { s with pending := rest, history := s.history ++ [.out s.fault] })
      ∧ (cw = 0x0F00 → ∃ t, step s = .next t ∧ IsReset t ∧ t.pending = rest ∧ t.history = s.history)
      ∧ (cw ≠ 0x8000 → cw ≠ 0x8001 → cw ≠ 0x0F00 → step s = .next { s with pending := rest })

/-- Only SRST leads out of the faulted state (R177, R178). -/
def Obligations.OnlySrstLeavesFault : Prop :=
  ∀ s t : State, s.faulted = true → step s = .next t → t.faulted = false →
    ∃ rest, s.pending = 0x0F00 :: rest

/-- The bits of STATUS (R30, R32). -/
def Obligations.StatusBits : Prop :=
  ∀ s : State,
    (statusWord s).getLsbD 0 = s.calValid ∧ (statusWord s).getLsbD 1 = s.rawValid
      ∧ (statusWord s).getLsbD 2 = s.tfValid ∧ (statusWord s).getLsbD 3 = s.toutValid
      ∧ (statusWord s).getLsbD 4 = s.houtValid ∧ (statusWord s).getLsbD 5 = s.curValid
      ∧ (statusWord s).getLsbD 6 = s.lastFail ∧ (statusWord s).getLsbD 7 = s.calErr
      ∧ (statusWord s).getLsbD 8 = s.faulted ∧ (statusWord s).getLsbD 9 = s.phase
      ∧ ∀ k, 10 ≤ k → (statusWord s).getLsbD k = false

/-! ### Reset -/

/-- Power-on reset and SRST have the same effect, from every state: the reset state of R42; no command can tell the two
apart. SRST leaves the parameters, the port and the history, which are no state of the engine (R37, R38): that it keeps the
history and the words still to come is the model's choice (log entries 2 and 3). -/
def Obligations.ResetAndSrstAgree : Prop :=
  IsReset State.reset ∧
    ∀ s : State, ∃ t, exec .srst s = .next t ∧ IsReset t
      ∧ SameObservable t { State.reset with params := s.params, pending := s.pending, history := s.history }

/-- In the reset state the commands that raise no fault are WRB to an assigned address, RD of an unguarded register and
SRST (R201). -/
def Obligations.FirstCommandsThatDoNotFault : Prop :=
  ∀ (s t : State) (i : Instr), IsReset s → exec i s = .next t →
    (t.faulted = false ↔
      i = .srst ∨ (∃ a d, i = .wrb a d ∧ addrAssigned a = true)
        ∨ ∃ n : BitVec 6, i = .rd n ∧ (n = 0 ∨ n = 1 ∨ n = 2 ∨ n = 4 ∨ n = 5))

/-! ### WRB -/

/-- WRB to an assigned address: the cell holds the byte, every other cell reads as before, nothing else changes (R51, R150). -/
def Obligations.WrbStoresOneByte : Prop :=
  ∀ (s : State) (a : BitVec 6) (d : Byte), s.faulted = false →
    (a.toNat ≤ 0x18 ∨ (0x20 ≤ a.toNat ∧ a.toNat ≤ 0x26) ∨ a.toNat = 0x28 ∨ (0x30 ≤ a.toNat ∧ a.toNat ≤ 0x3B)) →
    ∃ m, exec (.wrb a d) s = .next { s with ib := m } ∧ memRead m a.toNat = some d
      ∧ ∀ b, b ≠ a.toNat → memRead m b = memRead s.ib b

/-- WRB to one of the 19 unassigned addresses raises ILLEGAL_ADDR, code 2, and writes nothing (R51, R52, R150). -/
def Obligations.WrbUnassignedFaults : Prop :=
  ∀ (s : State) (a : BitVec 6) (d : Byte), s.faulted = false →
    ((0x19 ≤ a.toNat ∧ a.toNat ≤ 0x1F) ∨ a.toNat = 0x27 ∨ (0x29 ≤ a.toNat ∧ a.toNat ≤ 0x2F) ∨ 0x3C ≤ a.toNat) →
    exec (.wrb a d) s = .next (faultedWith 2 (0x4000 ||| a.setWidth 16 <<< 8 ||| d.setWidth 16) s)

/-! ### RD -/

/-- RD of each of the 28 registers whose guard, if it has one, is 1: one Out with the pattern of R88 and R153, nothing else. -/
def Obligations.RdEmitsTheRegister : Prop :=
  ∀ (s : State) (n : BitVec 6) (v : Word), s.faulted = false → (n, true, v) ∈ readTable s →
    exec (.rd n) s = .next { s with history := s.history ++ [.out v] }

/-- RD of an unassigned number decodes and raises ILLEGAL_REG, code 3; RD of a register whose guard is 0 raises UNINIT_READ,
code 8; neither emits (R88, R89). -/
def Obligations.RdWithoutValueFaults : Prop :=
  ∀ (s : State) (n : BitVec 6), s.faulted = false →
    decode (0x8000 ||| n.setWidth 16) = .ok (.rd n)
      ∧ (n.toNat = 0x03 ∨ (0x0B ≤ n.toNat ∧ n.toNat ≤ 0x0F) ∨ 0x22 ≤ n.toNat →
          exec (.rd n) s = .next (faultedWith 3 (0x8000 ||| n.setWidth 16) s))
      ∧ ∀ v, (n, false, v) ∈ readTable s → exec (.rd n) s = .next (faultedWith 8 (0x8000 ||| n.setWidth 16) s)

/-! ### CALLD -/

/-- A successful CALLD: every constant as R101 and R103 give it, CAL_VALID set, the old session ended, nothing else changed
(R70, R71, R100, R106). It needs the 32 data cells and, under `error`, both status cells 0. That ADC_T, ADC_H, T_FINE, T_OUT
and H_OUT keep their bits behind the guards it clears is the model's choice (DEDUCED, log entry 6), not the spec's. -/
def Obligations.CalldLoadsTheConstants : Prop :=
  ∀ (s : State) (c1 : Vector Byte 25) (c2 : Vector Byte 7), s.faulted = false →
    (s.params.calFailPolicy = .silent ∨ (memRead s.ib 0x38 = some 0 ∧ memRead s.ib 0x39 = some 0)) →
    cellsHold s.ib 0x00 c1 → cellsHold s.ib 0x20 c2 →
    ∃ c : Calibration,
      exec .calld s = .next { s with cal := c, calValid := true, calErr := false, rawValid := false, tfValid := false,
                                     toutValid := false, houtValid := false }
      ∧ c.digT1.toNat = c1[0].toNat + 256 * c1[1].toNat
      ∧ c.digT2.toNat = c1[2].toNat + 256 * c1[3].toNat
      ∧ c.digT3.toNat = c1[4].toNat + 256 * c1[5].toNat
      ∧ c.digP1.toNat = c1[6].toNat + 256 * c1[7].toNat
      ∧ c.digP2.toNat = c1[8].toNat + 256 * c1[9].toNat
      ∧ c.digP3.toNat = c1[10].toNat + 256 * c1[11].toNat
      ∧ c.digP4.toNat = c1[12].toNat + 256 * c1[13].toNat
      ∧ c.digP5.toNat = c1[14].toNat + 256 * c1[15].toNat
      ∧ c.digP6.toNat = c1[16].toNat + 256 * c1[17].toNat
      ∧ c.digP7.toNat = c1[18].toNat + 256 * c1[19].toNat
      ∧ c.digP8.toNat = c1[20].toNat + 256 * c1[21].toNat
      ∧ c.digP9.toNat = c1[22].toNat + 256 * c1[23].toNat
      ∧ c.digH1 = c1[24]
      ∧ c.digH2.toNat = c2[0].toNat + 256 * c2[1].toNat
      ∧ c.digH3 = c2[2]
      ∧ (s.params.h45Signed = false →
          c.digH4.toNat = 16 * c2[3].toNat + c2[4].toNat % 16 ∧ c.digH5.toNat = 16 * c2[4].toNat + c2[5].toNat / 16)
      ∧ (s.params.h45Signed = true →
          c.digH4.toInt = 16 * (c2[3].toInt) + c2[4].toNat % 16 ∧ c.digH5.toInt = 16 * (c2[4].toInt) + c2[5].toNat / 16)
      ∧ c.digH6 = c2[6]

/-- Under `error`, a CALLD whose two status cells are written and not both 0 reads no data cell: CAL_ERR set, CAL_VALID and
the session flags cleared, the calibration file unspecified (nothing is said of it), nothing else changed (R100, R105) but the
model's counter of free values (log entry 5). That ADC_T, ADC_H, T_FINE, T_OUT and H_OUT keep their bits behind the guards it
clears is the model's choice (DEDUCED, log entry 6). -/
def Obligations.CalldReportsAFailedRead : Prop :=
  ∀ (s : State) (b1 b2 : Byte), s.faulted = false → s.params.calFailPolicy = .error →
    memRead s.ib 0x38 = some b1 → memRead s.ib 0x39 = some b2 → (b1 ≠ 0 ∨ b2 ≠ 0) →
    ∃ (c : Calibration) (n : Nat),
      exec .calld s = .next { s with cal := c, fresh := n, calValid := false, calErr := true, rawValid := false,
                                     tfValid := false, toutValid := false, houtValid := false }

/-- CALLD raises UNINIT_INPUT, code 4, with no other effect, when a cell it reads is unwritten: a status cell under `error`; a
data cell under `silent`, or under `error` when both statuses are 0 (R53, R100, R107). -/
def Obligations.CalldUnwrittenFaults : Prop :=
  ∀ s : State, s.faulted = false →
    (s.params.calFailPolicy = .error ∧ (memRead s.ib 0x38 = none ∨ memRead s.ib 0x39 = none))
      ∨ ((s.params.calFailPolicy = .silent ∨ (memRead s.ib 0x38 = some 0 ∧ memRead s.ib 0x39 = some 0))
          ∧ (someUnwritten s.ib 0x00 25 ∨ someUnwritten s.ib 0x20 7)) →
    exec .calld s = .next (faultedWith 4 0x0100 s)

/-- With H45_SIGNED = false, all cells written and both statuses 0: after CALLD, RD dig_H4 and RD dig_H5 put the two
nibble-interleaved values on the port (R108). -/
def Obligations.PackedHumidityConstants : Prop :=
  ∀ (s : State) (c1 : Vector Byte 25) (c2 : Vector Byte 7), s.faulted = false → s.params.h45Signed = false →
    memRead s.ib 0x38 = some 0 → memRead s.ib 0x39 = some 0 → cellsHold s.ib 0x00 c1 → cellsHold s.ib 0x20 c2 →
    ∃ t, exec .calld s = .next t
      ∧ exec (.rd 0x1F) t = .next { t with history := t.history ++
          [.out (BitVec.ofNat 32 ((c2[3].toNat <<< 4) ||| (c2[4].toNat &&& 0x0F)))] }
      ∧ exec (.rd 0x20) t = .next { t with history := t.history ++
          [.out (BitVec.ofNat 32 ((c2[4].toNat <<< 4) ||| (c2[5].toNat >>> 4)))] }

/-! ### ACQ -/

/-- A successful ACQ: the raw reading as R112 decodes it, RAW_VALID set, LAST_FAIL and the three result guards cleared,
nothing else changed; calibration is not needed (R110, R112, R115). That T_FINE, T_OUT and H_OUT keep their bits behind the
guards it clears is the model's choice (DEDUCED, log entry 6). -/
def Obligations.AcqDecodesTheRawBytes : Prop :=
  ∀ (s : State) (raw : Vector Byte 8), s.faulted = false →
    memRead s.ib 0x3A = some 0 → memRead s.ib 0x28 = some 0x60 → memRead s.ib 0x3B = some 0 →
    cellsHold s.ib 0x30 raw →
    exec .acq s = .next { s with
      adcT := BitVec.ofNat 32 (raw[0].toNat * 4096 + raw[1].toNat * 16 + raw[2].toNat / 16)
      adcH := BitVec.ofNat 32 (raw[6].toNat * 256 + raw[7].toNat)
      rawValid := true, tfValid := false, toutValid := false, houtValid := false, lastFail := false }

/-- The three ways `Acquire` fails are one outcome; in ACQ it sets LAST_FAIL and touches nothing else (R110, R113, R114). -/
def Obligations.AcqFailureSetsLastFailOnly : Prop :=
  ∀ (s : State) (id sid sraw : Byte), s.faulted = false →
    (memRead s.ib 0x3A = some sid ∧ sid ≠ 0)
      ∨ (memRead s.ib 0x3A = some 0 ∧ memRead s.ib 0x28 = some id ∧ id ≠ 0x60)
      ∨ (memRead s.ib 0x3A = some 0 ∧ memRead s.ib 0x28 = some 0x60 ∧ memRead s.ib 0x3B = some sraw ∧ sraw ≠ 0) →
    exec .acq s = .next { s with lastFail := true }

/-- ACQ raises UNINIT_INPUT, code 4, with no other effect, when control reaches an unwritten cell (R53, R111, R117). -/
def Obligations.AcqUnwrittenFaults : Prop :=
  ∀ s : State, s.faulted = false →
    memRead s.ib 0x3A = none
      ∨ (memRead s.ib 0x3A = some 0 ∧ memRead s.ib 0x28 = none)
      ∨ (memRead s.ib 0x3A = some 0 ∧ memRead s.ib 0x28 = some 0x60 ∧ memRead s.ib 0x3B = none)
      ∨ (memRead s.ib 0x3A = some 0 ∧ memRead s.ib 0x28 = some 0x60 ∧ memRead s.ib 0x3B = some 0
          ∧ someUnwritten s.ib 0x30 8) →
    exec .acq s = .next (faultedWith 4 0x0200 s)

/-! ### TCOMP -/

/-- TCOMP in the arithmetic of 32-bit vectors: the document's block with every parenthesis written (R120, R121, R127). -/
def Obligations.TcompComputesTheTemperature : Prop :=
  ∀ s : State, s.faulted = false → s.calValid = true → s.rawValid = true →
    let t1 : Word := s.cal.digT1.setWidth 32
    let t2 : Word := s.cal.digT2.signExtend 32
    let t3 : Word := s.cal.digT3.signExtend 32
    let var1 := ((s.adcT.sshiftRight 3 - (t1 <<< 1)) * t2).sshiftRight 11
    let var2 := ((((s.adcT.sshiftRight 4 - t1) * (s.adcT.sshiftRight 4 - t1)).sshiftRight 12) * t3).sshiftRight 14
    exec .tcomp s = .next { s with tFine := var1 + var2, tOut := ((var1 + var2) * 5 + 128).sshiftRight 8,
                                   tfValid := true, toutValid := true }

/-- TCOMP tests CAL_VALID first (code 5), then RAW_VALID (code 6); a fault leaves the rest as it was (R120, R175). -/
def Obligations.TcompOutOfOrderFaults : Prop :=
  ∀ s : State, s.faulted = false →
    (s.calValid = false → exec .tcomp s = .next (faultedWith 5 0x0300 s))
      ∧ (s.calValid = true → s.rawValid = false → exec .tcomp s = .next (faultedWith 6 0x0300 s))

/-- After a TCOMP that does not fault, `t_fine` and `T` are in the ranges of the last rows of R123, whatever wrapped before. -/
def Obligations.TemperatureStaysInRange : Prop :=
  ∀ s t : State, s.faulted = false → s.calValid = true → s.rawValid = true → exec .tcomp s = .next t →
    -1179648 ≤ t.tFine.toInt ∧ t.tFine.toInt ≤ 1179646 ∧ -23040 ≤ t.tOut.toInt ∧ t.tOut.toInt ≤ 23040

/-- After a TCOMP that does not fault, `T` is `t_fine × 5 / 256` rounded to nearest, ties upward, on exact integers: half a
unit is added and the quotient rounded down (R124). -/
def Obligations.TemperatureRoundsToNearest : Prop :=
  ∀ s t : State, s.faulted = false → s.calValid = true → s.rawValid = true → exec .tcomp s = .next t →
    2 * 256 * t.tOut.toInt ≤ 2 * (5 * t.tFine.toInt) + 256 ∧ 2 * (5 * t.tFine.toInt) + 256 < 2 * 256 * (t.tOut.toInt + 1)

/-! ### HCOMP -/

/-- HCOMP in the arithmetic of 32-bit vectors, in the one-expression form R132 gives the default polynomial (which the spec
has from general knowledge, log entry 7), or with the free polynomial, or with the function HPOLY gives; then clamp and shift
(R8, R130, R131). -/
def Obligations.HcompComputesTheHumidity : Prop :=
  ∀ s : State, s.faulted = false → s.calValid = true → s.rawValid = true → s.tfValid = true →
    let h1 : Word := s.cal.digH1.setWidth 32
    let h2 : Word := s.cal.digH2.signExtend 32
    let h3 : Word := s.cal.digH3.setWidth 32
    let h4 : Word := s.cal.digH4.signExtend 32
    let h5 : Word := s.cal.digH5.signExtend 32
    let h6 : Word := s.cal.digH6.signExtend 32
    let x := s.tFine - 76800
    let w := ((((s.adcH <<< 14) - (h4 <<< 20) - (h5 * x)) + 16384).sshiftRight 15)
      * (((((((x * h6).sshiftRight 10) * (((x * h3).sshiftRight 11) + 32768)).sshiftRight 10) + 2097152) * h2
          + 8192).sshiftRight 14)
    let chain := w - ((((w.sshiftRight 15) * (w.sshiftRight 15)).sshiftRight 7) * h1).sshiftRight 4
    let v : Word := match s.params.hpoly with
      | .vendorChain => chain
      | .uninterpreted => Config.hpolyFree s.cal s.tFine s.adcH
      | .given e => polyValue s.cal s.tFine s.adcH e
    exec .hcomp s = .next { s with
      hOut := (if v.toInt < 0 then 0 else if 419430400 < v.toInt then 419430400 else v).sshiftRight 12
      houtValid := true }

/-- HPOLY may be any function of its three arguments: for each there is a value of the parameter under which every HCOMP that
does not fault clamps and shifts that function's value (R8, R130, R131). That the parameter holds the function as an expression
is the model's form (log entry 7). -/
def Obligations.HpolyMayBeAnyFunction : Prop :=
  ∀ f : Calibration → Word → Word → Word, ∃ p : Config.HPoly, ∀ s : State, s.params.hpoly = p →
    s.faulted = false → s.calValid = true → s.rawValid = true → s.tfValid = true →
    let v := f s.cal s.tFine s.adcH
    exec .hcomp s = .next { s with
      hOut := (if v.toInt < 0 then 0 else if 419430400 < v.toInt then 419430400 else v).sshiftRight 12
      houtValid := true }

/-- HCOMP tests CAL_VALID (5), RAW_VALID (6) and TF_VALID (7) in this order; a fault leaves the rest as it was (R130, R175). -/
def Obligations.HcompOutOfOrderFaults : Prop :=
  ∀ s : State, s.faulted = false →
    (s.calValid = false → exec .hcomp s = .next (faultedWith 5 0x0400 s))
      ∧ (s.calValid = true → s.rawValid = false → exec .hcomp s = .next (faultedWith 6 0x0400 s))
      ∧ (s.calValid = true → s.rawValid = true → s.tfValid = false → exec .hcomp s = .next (faultedWith 7 0x0400 s))

/-- The clamp, for any polynomial: a negative value becomes 0, one above 419430400 becomes 419430400, any other stays; the
result is its quotient by 4096, in 0..102400 (R133, R134). -/
def Obligations.HumidityIsClamped : Prop :=
  ∀ (which : Config.HPoly) (c : Calibration) (tFine adcH : Word), ∃ v1 : Int,
    ((hpoly which c tFine adcH).toInt < 0 → v1 = 0)
      ∧ (419430400 < (hpoly which c tFine adcH).toInt → v1 = 419430400)
      ∧ (0 ≤ (hpoly which c tFine adcH).toInt → (hpoly which c tFine adcH).toInt ≤ 419430400 →
          v1 = (hpoly which c tFine adcH).toInt)
      ∧ ((humComp which c tFine adcH).toNat : Int) = v1 / 4096
      ∧ (humComp which c tFine adcH).toNat ≤ 102400

/-- Under the default polynomial (the spec's general knowledge, log entry 7), storing the packed `dig_H4` with or without sign
extension gives the same humidity (R136). -/
def Obligations.SignOfH4DoesNotMatter : Prop :=
  ∀ (c : Calibration) (h : Nat) (tFine adcH : Word), h < 4096 →
    humComp .vendorChain { c with digH4 := (BitVec.ofNat 12 h).signExtend 16 } tFine adcH
      = humComp .vendorChain { c with digH4 := BitVec.ofNat 16 h } tFine adcH

/-! ### CYCLE -/

/-- A successful CYCLE: raw reading, temperature, humidity from the same cycle's `t_fine`, current reading, flags; nothing
else (R141, R142). PHASE is 0 at its end (R140). -/
def Obligations.CycleMakesAReading : Prop :=
  ∀ (s : State) (raw : Vector Byte 8), s.faulted = false → s.calValid = true →
    memRead s.ib 0x3A = some 0 → memRead s.ib 0x28 = some 0x60 → memRead s.ib 0x3B = some 0 →
    cellsHold s.ib 0x30 raw →
    let t : Word := BitVec.ofNat 32 (raw[0].toNat * 4096 + raw[1].toNat * 16 + raw[2].toNat / 16)
    let h : Word := BitVec.ofNat 32 (raw[6].toNat * 256 + raw[7].toNat)
    let temp := tempComp (s.cal.digT1.setWidth 32) (s.cal.digT2.signExtend 32) (s.cal.digT3.signExtend 32) t
    let hum := humComp s.params.hpoly s.cal temp.2 h
    exec .cycle s = .next { s with
      adcT := t, adcH := h, rawValid := true
      tFine := temp.2, tfValid := true, tOut := temp.1, toutValid := true
      hOut := hum, houtValid := true
      curT := temp.1, curH := hum, curValid := true, lastFail := false, phase := false }

/-- A failed CYCLE: the reading zeroed, LAST_FAIL set, DIAGCNT one more, exactly one Diag, nothing else changed (R141, R143,
R144). -/
def Obligations.CycleFailureZeroesTheReading : Prop :=
  ∀ (s : State) (id sid sraw : Byte), s.faulted = false → s.calValid = true →
    (memRead s.ib 0x3A = some sid ∧ sid ≠ 0)
      ∨ (memRead s.ib 0x3A = some 0 ∧ memRead s.ib 0x28 = some id ∧ id ≠ 0x60)
      ∨ (memRead s.ib 0x3A = some 0 ∧ memRead s.ib 0x28 = some 0x60 ∧ memRead s.ib 0x3B = some sraw ∧ sraw ≠ 0) →
    exec .cycle s = .next { s with curT := 0, curH := 0, curValid := false, lastFail := true,
                                   diagcnt := s.diagcnt + 1, history := s.history ++ [.diag], phase := false }

/-- CYCLE tests CAL_VALID before anything else (code 5), then raises UNINIT_INPUT (code 4) where control reaches an unwritten
cell; a fault changes nothing else (R141, R148). -/
def Obligations.CycleFaults : Prop :=
  ∀ s : State, s.faulted = false →
    (s.calValid = false → exec .cycle s = .next (faultedWith 5 0x0500 s))
      ∧ (s.calValid = true →
          memRead s.ib 0x3A = none
            ∨ (memRead s.ib 0x3A = some 0 ∧ memRead s.ib 0x28 = none)
            ∨ (memRead s.ib 0x3A = some 0 ∧ memRead s.ib 0x28 = some 0x60 ∧ memRead s.ib 0x3B = none)
            ∨ (memRead s.ib 0x3A = some 0 ∧ memRead s.ib 0x28 = some 0x60 ∧ memRead s.ib 0x3B = some 0
                ∧ someUnwritten s.ib 0x30 8) →
          exec .cycle s = .next (faultedWith 4 0x0500 s))

/-- A successful CYCLE is ACQ, TCOMP, HCOMP with no command between, and then the copy of the results to the current reading
(R145). -/
def Obligations.CycleIsAcqTcompHcomp : Prop :=
  ∀ s t : State, s.faulted = false → exec .cycle s = .next t → t.faulted = false → t.lastFail = false →
    ∃ a b c, exec .acq s = .next a ∧ exec .tcomp a = .next b ∧ exec .hcomp b = .next c
      ∧ t = { c with curT := c.tOut, curH := c.hOut, curValid := true, phase := false }

/-! ### Order of commands -/

/-- After a successful ACQ the three result guards are 0, and HCOMP before a new TCOMP raises TFINE_INVALID, code 7 (R115,
R208). -/
def Obligations.HumidityNeedsANewTemperature : Prop :=
  ∀ s t : State, s.faulted = false → s.calValid = true → exec .acq s = .next t → t.faulted = false →
    t.lastFail = false → t.tfValid = false ∧ t.toutValid = false ∧ t.houtValid = false
      ∧ exec .hcomp t = .next (faultedWith 7 0x0400 t)

/-- Repeating CALLD, TCOMP or HCOMP at once, after it succeeded, changes nothing more (R107, R126, R139). For CALLD, that the
registers behind cleared guards are equal too is the model's choice (DEDUCED, log entry 6). -/
def Obligations.RepeatingACommandChangesNothing : Prop :=
  (∀ s t : State, exec .calld s = .next t → t.faulted = false → t.calValid = true → exec .calld t = .next t)
    ∧ (∀ s t : State, exec .tcomp s = .next t → t.faulted = false → exec .tcomp t = .next t)
    ∧ ∀ s t : State, exec .hcomp s = .next t → t.faulted = false → exec .hcomp t = .next t

/-! ### Who writes what -/

/-- Only CALLD and SRST change the calibration file, CAL_VALID or CAL_ERR (R26, R28, R43). -/
def Obligations.OnlyCalldAndSrstWriteCalibration : Prop :=
  ∀ (i : Instr) (s t : State), exec i s = .next t → i ≠ .calld → i ≠ .srst →
    t.cal = s.cal ∧ t.calValid = s.calValid ∧ t.calErr = s.calErr

/-- Only CYCLE and SRST change the current reading, CUR_VALID or DIAGCNT (R25, R43). -/
def Obligations.OnlyCycleAndSrstWriteTheReading : Prop :=
  ∀ (i : Instr) (s t : State), exec i s = .next t → i ≠ .cycle → i ≠ .srst →
    t.curT = s.curT ∧ t.curH = s.curH ∧ t.curValid = s.curValid ∧ t.diagcnt = s.diagcnt

/-- Only WRB and SRST change the input buffer (R43, R53). -/
def Obligations.OnlyWrbAndSrstWriteTheBuffer : Prop :=
  ∀ (i : Instr) (s t : State), exec i s = .next t → i ≠ .srst → (∀ a d, i ≠ .wrb a d) → t.ib = s.ib

/-- A CYCLE that fails, and no other command, emits Diag, and exactly one: a CYCLE from an unfaulted state that ends unfaulted
with LAST_FAIL = 1 adds one Diag and one to DIAGCNT and zeroes the reading; any other end of CYCLE, and every command but CYCLE
and RD, leaves the ports as they were; RD adds at most one Out (R143, R149, R152). That SRST is among these, and keeps the
history, is the model's reading of program P3 (DEDUCED, log entry 3). -/
def Obligations.DiagOnceForEachFailedCycle : Prop :=
  ∀ (i : Instr) (s t : State), exec i s = .next t →
    (i = .cycle → s.faulted = false → t.faulted = false → t.lastFail = true →
        t.history = s.history ++ [.diag] ∧ t.diagcnt = s.diagcnt + 1 ∧ t.curT = 0 ∧ t.curH = 0 ∧ t.curValid = false)
      ∧ (i = .cycle → t.faulted = true ∨ t.lastFail = false → t.history = s.history)
      ∧ (i ≠ .cycle → t.history = s.history ∨ ∃ n v, i = .rd n ∧ t.history = s.history ++ [.out v])

/-- A host that has a diagnostic text writes it once for each failed CYCLE: one CYCLE that meets one of the three acquisition
failures makes the texts written one longer; a CYCLE that faults, is dropped or succeeds, and every other command, leaves them
as they were (R143, R149). The list of texts is the model's view of the host (log entry 9), and SRST leaves it because the model
keeps the history over SRST (DEDUCED, log entry 3). -/
def Obligations.DiagTextOnceForEachFailedCycle : Prop :=
  ∀ (s t : State) (text : List Byte), s.params.diagText = some text →
    (∀ id sid sraw : Byte, s.faulted = false → s.calValid = true →
      (memRead s.ib 0x3A = some sid ∧ sid ≠ 0)
        ∨ (memRead s.ib 0x3A = some 0 ∧ memRead s.ib 0x28 = some id ∧ id ≠ 0x60)
        ∨ (memRead s.ib 0x3A = some 0 ∧ memRead s.ib 0x28 = some 0x60 ∧ memRead s.ib 0x3B = some sraw ∧ sraw ≠ 0) →
      exec .cycle s = .next t → diagTexts t = diagTexts s ++ [text])
    ∧ (exec .cycle s = .next t → t.faulted = true ∨ t.lastFail = false → diagTexts t = diagTexts s)
    ∧ ∀ i : Instr, i ≠ .cycle → exec i s = .next t → diagTexts t = diagTexts s

/-- No step changes a parameter (R202). -/
def Obligations.ParametersNeverChange : Prop :=
  ∀ s t : State, step s = .next t → t.params = s.params

/-! ### Invariants and what cannot be observed -/

/-- The reset state meets the three invariants. -/
def Obligations.ResetMeetsTheInvariants : Prop :=
  MemoryInv State.reset ∧ FaultInv State.reset ∧ ReadingInv State.reset

/-- Every step keeps the input buffer in canonical form, with assigned cells only (R51, R52). -/
def Obligations.StepKeepsMemoryInv : Prop :=
  ∀ s t : State, MemoryInv s → step s = .next t → MemoryInv t

/-- Every step keeps the sequencer in Idle between commands and FAULT in the form of R33 (R33, R140, R176). -/
def Obligations.StepKeepsFaultInv : Prop :=
  ∀ s t : State, FaultInv s → step s = .next t → FaultInv t

/-- Every step keeps what the validity flags promise: while TF_VALID is 1, T_OUT and T_FINE are the compensation of the raw
reading in ADC_T under the loaded constants, and while HOUT_VALID is 1, H_OUT is the humidity of that T_FINE and ADC_H (R21,
R27, R30, R32, R103). -/
def Obligations.StepKeepsReadingInv : Prop :=
  ∀ s t : State, ReadingInv s → step s = .next t → ReadingInv t

/-- The content of a guarded register whose guard is 0 can never be observed: two states that differ in nothing else stay so,
with the same events on the ports (R31). So the values the model gives such registers (log entries 4, 5, 6) show nowhere. -/
def Obligations.UnguardedContentIsUnobservable : Prop :=
  ∀ s t s' t' : State, SameObservable s t → step s = .next s' → step t = .next t' → SameObservable s' t'

/-! ### The float view -/

/-- The humidity is exact in every binary float format with at least 17 significand bits (R158) and, so that 100.0 is in
range, at least 4 exponent bits, also where the division is done in another such format first; the format's layout is the
model's (log entry 8). -/
def Obligations.HumidityFloatIsExact : Prop :=
  ∀ (fmt : Config.FloatFmt) (h : Nat), 17 ≤ fmt.precision → 4 ≤ fmt.expBits →
    (∀ wide, fmt.wider = some wide → 17 ≤ wide.precision ∧ 4 ≤ wide.expBits) → h ≤ 102400 →
    floatValue fmt.toFloatLayout (renderFloat fmt h 1024) = (h : ℚ) / 1024

/-- The examples of R159 under the default FLOAT_FMT, whose layout is the model's (log entry 8). -/
def Obligations.TemperatureFloatExamples : Prop :=
  renderFloat Config.binary32 2508 100 = 0x41C8A3D7
    ∧ renderFloat Config.binary32 0 100 = 0
    ∧ floatValue Config.binary32.toFloatLayout 0x41C8A3D7 = 25.0799999237060546875
end

