-- ==== Sys2Proof/Laws/Arith.lean ====
section
/-!
SUPPORT. The i32 primitives of spec/00_scope.md R11 are the 32-bit vector operations (spec/42_temperature.md R127), and
what they give as integers.
-/

namespace Sys2Proof.Machine

theorem wrap32_toInt (w : Word) : wrap32 w.toInt = w := by
  simp [wrap32]

theorem toInt_wrap32 {z : Int} (h1 : -2 ^ 31 ≤ z) (h2 : z < 2 ^ 31) : (wrap32 z).toInt = z := by
  rw [wrap32, BitVec.toInt_ofInt]
  rw [Int.bmod_eq_of_le] <;> omega

theorem add32_eq (a b : Word) : add32 a b = a + b := by
  apply BitVec.eq_of_toInt_eq
  simp [add32, wrap32, BitVec.toInt_add]

theorem sub32_eq (a b : Word) : sub32 a b = a - b := by
  apply BitVec.eq_of_toInt_eq
  simp [sub32, wrap32, BitVec.toInt_sub]

theorem mul32_eq (a b : Word) : mul32 a b = a * b := by
  apply BitVec.eq_of_toInt_eq
  simp [mul32, wrap32, BitVec.toInt_mul]

theorem shl32_eq (a : Word) (n : Nat) : shl32 a n = a <<< n := by
  apply BitVec.eq_of_toInt_eq
  rw [shl32, wrap32, BitVec.toInt_ofInt, BitVec.toInt_shiftLeft, Nat.shiftLeft_eq, BitVec.toInt_eq_toNat_bmod]
  push_cast
  exact Int.bmod_mul_bmod

theorem sar32_eq (a : Word) (n : Nat) : sar32 a n = a.sshiftRight n := by
  simp [sar32, wrap32, BitVec.sshiftRight, Int.shiftRight_eq_div_pow]

/-- A right shift never leaves the i32 range, so it is the floor of the quotient. -/
theorem toInt_sar32 (a : Word) (n : Nat) : (sar32 a n).toInt = a.toInt / 2 ^ n := by
  rw [sar32_eq, BitVec.toInt_sshiftRight, Int.shiftRight_eq_div_pow]
  norm_cast

theorem toInt_bounds (a : Word) : -2147483648 ≤ a.toInt ∧ a.toInt ≤ 2147483647 := by
  have h1 := BitVec.le_toInt a
  have h2 := BitVec.toInt_lt (x := a)
  omega

theorem clampInt_bounds (v : Int) {lo hi : Int} (h : lo ≤ hi) : lo ≤ clampInt v lo hi ∧ clampInt v lo hi ≤ hi := by
  unfold clampInt
  split
  · omega
  · split <;> omega

theorem le16_eq (lo hi : Byte) : le16 lo hi = lo.toNat + 256 * hi.toNat := by
  have h := lo.isLt
  rw [le16, Nat.or_comm, ← Nat.shiftLeft_add_eq_or_of_lt h, Nat.shiftLeft_eq]
  omega

end Sys2Proof.Machine
end

