-- ==== Sys2Proof/Laws/Memory.lean ====
section
/-!
SUPPORT. The laws of the input buffer: what a read gives after a write, that every operation keeps the canonical form, and
what reading a block of cells gives.
-/

namespace Sys2Proof.Machine

@[simp] theorem memRead_nil (a : Nat) : memRead [] a = none := rfl

theorem memRead_memWrite_self (m : Memory) (a : Nat) (v : Byte) : memRead (memWrite m a v) a = some v := by
  induction m with
  | nil => simp [memWrite, memRead]
  | cons c rest ih =>
    obtain ⟨b, u⟩ := c
    by_cases h1 : a < b
    · simp [memWrite, h1, memRead]
    · by_cases h2 : a = b
      · simp [memWrite, h2, memRead]
      · simp [memWrite, h1, h2, memRead, Ne.symm h2, ih]

theorem memRead_memWrite_ne (m : Memory) {a a' : Nat} (v : Byte) (hne : a' ≠ a) :
    memRead (memWrite m a v) a' = memRead m a' := by
  induction m with
  | nil => simp [memWrite, memRead, hne.symm]
  | cons c rest ih =>
    obtain ⟨b, u⟩ := c
    by_cases h1 : a < b
    · simp [memWrite, h1, memRead, hne.symm]
    · by_cases h2 : a = b
      · subst h2
        simp [memWrite, memRead, hne.symm]
      · by_cases h3 : b = a'
        · subst h3
          simp [memWrite, h1, h2, memRead]
        · simp [memWrite, h1, h2, memRead, h3, ih]

theorem memRead_memWrite (m : Memory) (a a' : Nat) (v : Byte) :
    memRead (memWrite m a v) a' = if a' = a then some v else memRead m a' := by
  split
  · next h => rw [h, memRead_memWrite_self]
  · next h => exact memRead_memWrite_ne m v h

/-- The canonical form, one cell at a time: the tail is canonical and every cell of it lies higher. -/
theorem wf_cons (c : Host.Cell) (m : Memory) :
    Memory.wf (c :: m) = true ↔ Memory.wf m = true ∧ ∀ d ∈ m, c.1 < d.1 := by
  induction m generalizing c with
  | nil => simp [Memory.wf]
  | cons d rest ih =>
    simp only [Memory.wf, Bool.and_eq_true, decide_eq_true_eq, List.mem_cons, forall_eq_or_imp]
    constructor
    · rintro ⟨h1, h2⟩
      exact ⟨h2, h1, fun e he => h1.trans (((ih d).mp h2).2 e he)⟩
    · rintro ⟨h1, h2, -⟩
      exact ⟨h2, h1⟩

theorem memWrite_mem {m : Memory} {a : Nat} {v : Byte} {d : Host.Cell} (h : d ∈ memWrite m a v) :
    d = (a, v) ∨ d ∈ m := by
  induction m with
  | nil => simpa [memWrite] using h
  | cons c rest ih =>
    obtain ⟨b, u⟩ := c
    by_cases h1 : a < b
    · simpa [memWrite, h1] using h
    · by_cases h2 : a = b
      · subst h2
        simp only [memWrite, lt_irrefl, if_false, if_true, List.mem_cons] at h
        rcases h with h | h
        · exact .inl h
        · exact .inr (List.mem_cons_of_mem _ h)
      · simp only [memWrite, h1, h2, if_false, List.mem_cons] at h
        rcases h with h | h
        · exact .inr (by simp [h])
        · rcases ih h with h' | h'
          · exact .inl h'
          · exact .inr (List.mem_cons_of_mem _ h')

theorem memWrite_wf {m : Memory} (a : Nat) (v : Byte) (h : Memory.wf m = true) : Memory.wf (memWrite m a v) = true := by
  induction m with
  | nil => rfl
  | cons c rest ih =>
    obtain ⟨b, u⟩ := c
    obtain ⟨hrest, hlow⟩ := (wf_cons _ _).mp h
    by_cases h1 : a < b
    · simp only [memWrite, h1, if_true, Memory.wf, decide_true, Bool.true_and]
      exact h
    · by_cases h2 : a = b
      · subst h2
        simp only [memWrite, lt_irrefl, if_false, if_true]
        exact (wf_cons _ _).mpr ⟨hrest, hlow⟩
      · simp only [memWrite, h1, h2, if_false]
        refine (wf_cons _ _).mpr ⟨ih hrest, fun d hd => ?_⟩
        rcases memWrite_mem hd with rfl | hd
        · show b < a
          omega
        · exact hlow d hd

theorem nil_wf : Memory.wf [] = true := rfl

/-- A block that is written whole reads as its bytes. -/
theorem ibRange_eq_some {m : Memory} {a : Nat} : ∀ {n : Nat} {bytes : Vector Byte n},
    (∀ k, (h : k < n) → memRead m (a + k) = some bytes[k]) → ibRange m a n = some bytes
  | 0, bytes, _ => by simp [ibRange, Vector.eq_empty]
  | n + 1, bytes, h => by
    have hinit : ibRange m a n = some (bytes.pop.cast (by omega)) := by
      apply ibRange_eq_some
      intro k hk
      rw [h k (by omega)]
      simp
    have hlast := h n (by omega)
    simp only [ibRange, hinit, hlast]
    congr 1
    ext k hk
    by_cases hkn : k < n
    · simp [hkn]
    · have : k = n := by omega
      subst this
      simp

/-- The bytes a block read gives are those of its cells. -/
theorem ibRange_cell {m : Memory} {a : Nat} : ∀ {n : Nat} {bytes : Vector Byte n},
    ibRange m a n = some bytes → ∀ k, (h : k < n) → memRead m (a + k) = some bytes[k]
  | 0, _, _ => fun k h => absurd h (Nat.not_lt_zero k)
  | n + 1, bytes, hb => by
    intro k hk
    simp only [ibRange] at hb
    split at hb
    · next v b hv hread =>
      obtain rfl := Option.some.inj hb
      by_cases hkn : k < n
      · simp [hkn, ibRange_cell hv k hkn]
      · have : k = n := by omega
        subst this
        simp [hread]
    · cases hb

/-- A block read gives nothing exactly when some cell is unwritten. -/
theorem ibRange_eq_none {m : Memory} {a n : Nat} :
    ibRange m a n = none ↔ ∃ k, k < n ∧ memRead m (a + k) = none := by
  induction n with
  | zero => simp [ibRange]
  | succ n ih =>
    simp only [ibRange]
    constructor
    · intro h
      split at h
      · cases h
      · next hno =>
        cases hv : ibRange m a n with
        | none =>
          obtain ⟨k, hk, hr⟩ := ih.mp hv
          exact ⟨k, by omega, hr⟩
        | some v =>
          cases hr : memRead m (a + n) with
          | none => exact ⟨n, by omega, hr⟩
          | some b => exact absurd hr (hno v b hv)
    · rintro ⟨k, hk, hr⟩
      split
      · next v b hv hread =>
        by_cases hkn : k = n
        · subst hkn
          rw [hr] at hread
          cases hread
        · rw [ih.mpr ⟨k, by omega, hr⟩] at hv
          cases hv
      · rfl

theorem loadCell_ok {m : Memory} {a : BitVec 6} {b : Byte} (h : memRead m a.toNat = some b) :
    loadCell m a = .ok b := by
  simp [loadCell, h]

theorem loadCell_error {m : Memory} {a : BitVec 6} (h : memRead m a.toNat = none) :
    loadCell m a = .error .uninitInput := by
  simp [loadCell, h]

/-- Everything a one-cell read can do. -/
theorem loadCell_cases (m : Memory) (a : BitVec 6) :
    (∃ b, memRead m a.toNat = some b ∧ loadCell m a = .ok b)
      ∨ (memRead m a.toNat = none ∧ loadCell m a = .error .uninitInput) := by
  cases h : memRead m a.toNat with
  | none => exact .inr ⟨rfl, loadCell_error h⟩
  | some b => exact .inl ⟨b, rfl, loadCell_ok h⟩

theorem loadRange_ok {m : Memory} {a : BitVec 6} {n : Nat} {bytes : Vector Byte n}
    (h : ∀ k, (hk : k < n) → memRead m (a.toNat + k) = some bytes[k]) : loadRange m a n = .ok bytes := by
  simp [loadRange, ibRange_eq_some h]

theorem loadRange_error {m : Memory} {a : BitVec 6} {n : Nat}
    (h : ∃ k, k < n ∧ memRead m (a.toNat + k) = none) : loadRange m a n = .error .uninitInput := by
  simp [loadRange, ibRange_eq_none.mpr h]

/-- Everything a block read can do. -/
theorem loadRange_cases (m : Memory) (a : BitVec 6) (n : Nat) :
    (∃ bytes : Vector Byte n, (∀ k, (hk : k < n) → memRead m (a.toNat + k) = some bytes[k])
        ∧ loadRange m a n = .ok bytes)
      ∨ ((∃ k, k < n ∧ memRead m (a.toNat + k) = none) ∧ loadRange m a n = .error .uninitInput) := by
  cases h : ibRange m a.toNat n with
  | none => exact .inr ⟨ibRange_eq_none.mp h, loadRange_error (ibRange_eq_none.mp h)⟩
  | some bytes => exact .inl ⟨bytes, ibRange_cell h, loadRange_ok (ibRange_cell h)⟩

end Sys2Proof.Machine
end

