-- ==== Sys2Proof/Laws/State.lean ====
section
/-!
SUPPORT. What each register write of Machine/Ops.lean leaves in each field of the state, so that no proof unfolds a record
update.
-/

namespace Sys2Proof.Machine

/-! ### setIb -/

@[simp] theorem setIb_adcT (m : Memory) (s : State) : (setIb m s).adcT = s.adcT := rfl
@[simp] theorem setIb_adcH (m : Memory) (s : State) : (setIb m s).adcH = s.adcH := rfl
@[simp] theorem setIb_tFine (m : Memory) (s : State) : (setIb m s).tFine = s.tFine := rfl
@[simp] theorem setIb_tOut (m : Memory) (s : State) : (setIb m s).tOut = s.tOut := rfl
@[simp] theorem setIb_hOut (m : Memory) (s : State) : (setIb m s).hOut = s.hOut := rfl
@[simp] theorem setIb_curT (m : Memory) (s : State) : (setIb m s).curT = s.curT := rfl
@[simp] theorem setIb_curH (m : Memory) (s : State) : (setIb m s).curH = s.curH := rfl
@[simp] theorem setIb_cal (m : Memory) (s : State) : (setIb m s).cal = s.cal := rfl
@[simp] theorem setIb_calValid (m : Memory) (s : State) : (setIb m s).calValid = s.calValid := rfl
@[simp] theorem setIb_rawValid (m : Memory) (s : State) : (setIb m s).rawValid = s.rawValid := rfl
@[simp] theorem setIb_tfValid (m : Memory) (s : State) : (setIb m s).tfValid = s.tfValid := rfl
@[simp] theorem setIb_toutValid (m : Memory) (s : State) : (setIb m s).toutValid = s.toutValid := rfl
@[simp] theorem setIb_houtValid (m : Memory) (s : State) : (setIb m s).houtValid = s.houtValid := rfl
@[simp] theorem setIb_curValid (m : Memory) (s : State) : (setIb m s).curValid = s.curValid := rfl
@[simp] theorem setIb_lastFail (m : Memory) (s : State) : (setIb m s).lastFail = s.lastFail := rfl
@[simp] theorem setIb_calErr (m : Memory) (s : State) : (setIb m s).calErr = s.calErr := rfl
@[simp] theorem setIb_faulted (m : Memory) (s : State) : (setIb m s).faulted = s.faulted := rfl
@[simp] theorem setIb_phase (m : Memory) (s : State) : (setIb m s).phase = s.phase := rfl
@[simp] theorem setIb_fault (m : Memory) (s : State) : (setIb m s).fault = s.fault := rfl
@[simp] theorem setIb_diagcnt (m : Memory) (s : State) : (setIb m s).diagcnt = s.diagcnt := rfl
@[simp] theorem setIb_ib (m : Memory) (s : State) : (setIb m s).ib = m := rfl
@[simp] theorem setIb_params (m : Memory) (s : State) : (setIb m s).params = s.params := rfl
@[simp] theorem setIb_pending (m : Memory) (s : State) : (setIb m s).pending = s.pending := rfl
@[simp] theorem setIb_history (m : Memory) (s : State) : (setIb m s).history = s.history := rfl
@[simp] theorem setIb_fresh (m : Memory) (s : State) : (setIb m s).fresh = s.fresh := rfl

/-! ### emit -/

@[simp] theorem emit_adcT (e : Event) (s : State) : (emit e s).adcT = s.adcT := rfl
@[simp] theorem emit_adcH (e : Event) (s : State) : (emit e s).adcH = s.adcH := rfl
@[simp] theorem emit_tFine (e : Event) (s : State) : (emit e s).tFine = s.tFine := rfl
@[simp] theorem emit_tOut (e : Event) (s : State) : (emit e s).tOut = s.tOut := rfl
@[simp] theorem emit_hOut (e : Event) (s : State) : (emit e s).hOut = s.hOut := rfl
@[simp] theorem emit_curT (e : Event) (s : State) : (emit e s).curT = s.curT := rfl
@[simp] theorem emit_curH (e : Event) (s : State) : (emit e s).curH = s.curH := rfl
@[simp] theorem emit_cal (e : Event) (s : State) : (emit e s).cal = s.cal := rfl
@[simp] theorem emit_calValid (e : Event) (s : State) : (emit e s).calValid = s.calValid := rfl
@[simp] theorem emit_rawValid (e : Event) (s : State) : (emit e s).rawValid = s.rawValid := rfl
@[simp] theorem emit_tfValid (e : Event) (s : State) : (emit e s).tfValid = s.tfValid := rfl
@[simp] theorem emit_toutValid (e : Event) (s : State) : (emit e s).toutValid = s.toutValid := rfl
@[simp] theorem emit_houtValid (e : Event) (s : State) : (emit e s).houtValid = s.houtValid := rfl
@[simp] theorem emit_curValid (e : Event) (s : State) : (emit e s).curValid = s.curValid := rfl
@[simp] theorem emit_lastFail (e : Event) (s : State) : (emit e s).lastFail = s.lastFail := rfl
@[simp] theorem emit_calErr (e : Event) (s : State) : (emit e s).calErr = s.calErr := rfl
@[simp] theorem emit_faulted (e : Event) (s : State) : (emit e s).faulted = s.faulted := rfl
@[simp] theorem emit_phase (e : Event) (s : State) : (emit e s).phase = s.phase := rfl
@[simp] theorem emit_fault (e : Event) (s : State) : (emit e s).fault = s.fault := rfl
@[simp] theorem emit_diagcnt (e : Event) (s : State) : (emit e s).diagcnt = s.diagcnt := rfl
@[simp] theorem emit_ib (e : Event) (s : State) : (emit e s).ib = s.ib := rfl
@[simp] theorem emit_params (e : Event) (s : State) : (emit e s).params = s.params := rfl
@[simp] theorem emit_pending (e : Event) (s : State) : (emit e s).pending = s.pending := rfl
@[simp] theorem emit_history (e : Event) (s : State) : (emit e s).history = s.history ++ [e] := rfl
@[simp] theorem emit_fresh (e : Event) (s : State) : (emit e s).fresh = s.fresh := rfl

/-! ### clearResults -/

@[simp] theorem clearResults_adcT (s : State) : (clearResults s).adcT = s.adcT := rfl
@[simp] theorem clearResults_adcH (s : State) : (clearResults s).adcH = s.adcH := rfl
@[simp] theorem clearResults_tFine (s : State) : (clearResults s).tFine = s.tFine := rfl
@[simp] theorem clearResults_tOut (s : State) : (clearResults s).tOut = s.tOut := rfl
@[simp] theorem clearResults_hOut (s : State) : (clearResults s).hOut = s.hOut := rfl
@[simp] theorem clearResults_curT (s : State) : (clearResults s).curT = s.curT := rfl
@[simp] theorem clearResults_curH (s : State) : (clearResults s).curH = s.curH := rfl
@[simp] theorem clearResults_cal (s : State) : (clearResults s).cal = s.cal := rfl
@[simp] theorem clearResults_calValid (s : State) : (clearResults s).calValid = s.calValid := rfl
@[simp] theorem clearResults_rawValid (s : State) : (clearResults s).rawValid = s.rawValid := rfl
@[simp] theorem clearResults_tfValid (s : State) : (clearResults s).tfValid = false := rfl
@[simp] theorem clearResults_toutValid (s : State) : (clearResults s).toutValid = false := rfl
@[simp] theorem clearResults_houtValid (s : State) : (clearResults s).houtValid = false := rfl
@[simp] theorem clearResults_curValid (s : State) : (clearResults s).curValid = s.curValid := rfl
@[simp] theorem clearResults_lastFail (s : State) : (clearResults s).lastFail = s.lastFail := rfl
@[simp] theorem clearResults_calErr (s : State) : (clearResults s).calErr = s.calErr := rfl
@[simp] theorem clearResults_faulted (s : State) : (clearResults s).faulted = s.faulted := rfl
@[simp] theorem clearResults_phase (s : State) : (clearResults s).phase = s.phase := rfl
@[simp] theorem clearResults_fault (s : State) : (clearResults s).fault = s.fault := rfl
@[simp] theorem clearResults_diagcnt (s : State) : (clearResults s).diagcnt = s.diagcnt := rfl
@[simp] theorem clearResults_ib (s : State) : (clearResults s).ib = s.ib := rfl
@[simp] theorem clearResults_params (s : State) : (clearResults s).params = s.params := rfl
@[simp] theorem clearResults_pending (s : State) : (clearResults s).pending = s.pending := rfl
@[simp] theorem clearResults_history (s : State) : (clearResults s).history = s.history := rfl
@[simp] theorem clearResults_fresh (s : State) : (clearResults s).fresh = s.fresh := rfl

/-! ### endSession -/

@[simp] theorem endSession_adcT (s : State) : (endSession s).adcT = s.adcT := rfl
@[simp] theorem endSession_adcH (s : State) : (endSession s).adcH = s.adcH := rfl
@[simp] theorem endSession_tFine (s : State) : (endSession s).tFine = s.tFine := rfl
@[simp] theorem endSession_tOut (s : State) : (endSession s).tOut = s.tOut := rfl
@[simp] theorem endSession_hOut (s : State) : (endSession s).hOut = s.hOut := rfl
@[simp] theorem endSession_curT (s : State) : (endSession s).curT = s.curT := rfl
@[simp] theorem endSession_curH (s : State) : (endSession s).curH = s.curH := rfl
@[simp] theorem endSession_cal (s : State) : (endSession s).cal = s.cal := rfl
@[simp] theorem endSession_calValid (s : State) : (endSession s).calValid = s.calValid := rfl
@[simp] theorem endSession_rawValid (s : State) : (endSession s).rawValid = false := rfl
@[simp] theorem endSession_tfValid (s : State) : (endSession s).tfValid = false := rfl
@[simp] theorem endSession_toutValid (s : State) : (endSession s).toutValid = false := rfl
@[simp] theorem endSession_houtValid (s : State) : (endSession s).houtValid = false := rfl
@[simp] theorem endSession_curValid (s : State) : (endSession s).curValid = s.curValid := rfl
@[simp] theorem endSession_lastFail (s : State) : (endSession s).lastFail = s.lastFail := rfl
@[simp] theorem endSession_calErr (s : State) : (endSession s).calErr = s.calErr := rfl
@[simp] theorem endSession_faulted (s : State) : (endSession s).faulted = s.faulted := rfl
@[simp] theorem endSession_phase (s : State) : (endSession s).phase = s.phase := rfl
@[simp] theorem endSession_fault (s : State) : (endSession s).fault = s.fault := rfl
@[simp] theorem endSession_diagcnt (s : State) : (endSession s).diagcnt = s.diagcnt := rfl
@[simp] theorem endSession_ib (s : State) : (endSession s).ib = s.ib := rfl
@[simp] theorem endSession_params (s : State) : (endSession s).params = s.params := rfl
@[simp] theorem endSession_pending (s : State) : (endSession s).pending = s.pending := rfl
@[simp] theorem endSession_history (s : State) : (endSession s).history = s.history := rfl
@[simp] theorem endSession_fresh (s : State) : (endSession s).fresh = s.fresh := rfl

/-! ### loadCalibration -/

@[simp] theorem loadCalibration_adcT (c : Calibration) (s : State) : (loadCalibration c s).adcT = s.adcT := rfl
@[simp] theorem loadCalibration_adcH (c : Calibration) (s : State) : (loadCalibration c s).adcH = s.adcH := rfl
@[simp] theorem loadCalibration_tFine (c : Calibration) (s : State) : (loadCalibration c s).tFine = s.tFine := rfl
@[simp] theorem loadCalibration_tOut (c : Calibration) (s : State) : (loadCalibration c s).tOut = s.tOut := rfl
@[simp] theorem loadCalibration_hOut (c : Calibration) (s : State) : (loadCalibration c s).hOut = s.hOut := rfl
@[simp] theorem loadCalibration_curT (c : Calibration) (s : State) : (loadCalibration c s).curT = s.curT := rfl
@[simp] theorem loadCalibration_curH (c : Calibration) (s : State) : (loadCalibration c s).curH = s.curH := rfl
@[simp] theorem loadCalibration_cal (c : Calibration) (s : State) : (loadCalibration c s).cal = c := rfl
@[simp] theorem loadCalibration_calValid (c : Calibration) (s : State) : (loadCalibration c s).calValid = true := rfl
@[simp] theorem loadCalibration_rawValid (c : Calibration) (s : State) : (loadCalibration c s).rawValid = s.rawValid := rfl
@[simp] theorem loadCalibration_tfValid (c : Calibration) (s : State) : (loadCalibration c s).tfValid = s.tfValid := rfl
@[simp] theorem loadCalibration_toutValid (c : Calibration) (s : State) : (loadCalibration c s).toutValid = s.toutValid := rfl
@[simp] theorem loadCalibration_houtValid (c : Calibration) (s : State) : (loadCalibration c s).houtValid = s.houtValid := rfl
@[simp] theorem loadCalibration_curValid (c : Calibration) (s : State) : (loadCalibration c s).curValid = s.curValid := rfl
@[simp] theorem loadCalibration_lastFail (c : Calibration) (s : State) : (loadCalibration c s).lastFail = s.lastFail := rfl
@[simp] theorem loadCalibration_calErr (c : Calibration) (s : State) : (loadCalibration c s).calErr = false := rfl
@[simp] theorem loadCalibration_faulted (c : Calibration) (s : State) : (loadCalibration c s).faulted = s.faulted := rfl
@[simp] theorem loadCalibration_phase (c : Calibration) (s : State) : (loadCalibration c s).phase = s.phase := rfl
@[simp] theorem loadCalibration_fault (c : Calibration) (s : State) : (loadCalibration c s).fault = s.fault := rfl
@[simp] theorem loadCalibration_diagcnt (c : Calibration) (s : State) : (loadCalibration c s).diagcnt = s.diagcnt := rfl
@[simp] theorem loadCalibration_ib (c : Calibration) (s : State) : (loadCalibration c s).ib = s.ib := rfl
@[simp] theorem loadCalibration_params (c : Calibration) (s : State) : (loadCalibration c s).params = s.params := rfl
@[simp] theorem loadCalibration_pending (c : Calibration) (s : State) : (loadCalibration c s).pending = s.pending := rfl
@[simp] theorem loadCalibration_history (c : Calibration) (s : State) : (loadCalibration c s).history = s.history := rfl
@[simp] theorem loadCalibration_fresh (c : Calibration) (s : State) : (loadCalibration c s).fresh = s.fresh := rfl

/-! ### loseCalibration -/

@[simp] theorem loseCalibration_adcT (s : State) : (loseCalibration s).adcT = s.adcT := rfl
@[simp] theorem loseCalibration_adcH (s : State) : (loseCalibration s).adcH = s.adcH := rfl
@[simp] theorem loseCalibration_tFine (s : State) : (loseCalibration s).tFine = s.tFine := rfl
@[simp] theorem loseCalibration_tOut (s : State) : (loseCalibration s).tOut = s.tOut := rfl
@[simp] theorem loseCalibration_hOut (s : State) : (loseCalibration s).hOut = s.hOut := rfl
@[simp] theorem loseCalibration_curT (s : State) : (loseCalibration s).curT = s.curT := rfl
@[simp] theorem loseCalibration_curH (s : State) : (loseCalibration s).curH = s.curH := rfl
@[simp] theorem loseCalibration_cal (s : State) : (loseCalibration s).cal = Config.freeCalibration s.fresh := rfl
@[simp] theorem loseCalibration_calValid (s : State) : (loseCalibration s).calValid = false := rfl
@[simp] theorem loseCalibration_rawValid (s : State) : (loseCalibration s).rawValid = s.rawValid := rfl
@[simp] theorem loseCalibration_tfValid (s : State) : (loseCalibration s).tfValid = s.tfValid := rfl
@[simp] theorem loseCalibration_toutValid (s : State) : (loseCalibration s).toutValid = s.toutValid := rfl
@[simp] theorem loseCalibration_houtValid (s : State) : (loseCalibration s).houtValid = s.houtValid := rfl
@[simp] theorem loseCalibration_curValid (s : State) : (loseCalibration s).curValid = s.curValid := rfl
@[simp] theorem loseCalibration_lastFail (s : State) : (loseCalibration s).lastFail = s.lastFail := rfl
@[simp] theorem loseCalibration_calErr (s : State) : (loseCalibration s).calErr = true := rfl
@[simp] theorem loseCalibration_faulted (s : State) : (loseCalibration s).faulted = s.faulted := rfl
@[simp] theorem loseCalibration_phase (s : State) : (loseCalibration s).phase = s.phase := rfl
@[simp] theorem loseCalibration_fault (s : State) : (loseCalibration s).fault = s.fault := rfl
@[simp] theorem loseCalibration_diagcnt (s : State) : (loseCalibration s).diagcnt = s.diagcnt := rfl
@[simp] theorem loseCalibration_ib (s : State) : (loseCalibration s).ib = s.ib := rfl
@[simp] theorem loseCalibration_params (s : State) : (loseCalibration s).params = s.params := rfl
@[simp] theorem loseCalibration_pending (s : State) : (loseCalibration s).pending = s.pending := rfl
@[simp] theorem loseCalibration_history (s : State) : (loseCalibration s).history = s.history := rfl
@[simp] theorem loseCalibration_fresh (s : State) : (loseCalibration s).fresh = s.fresh + 1 := rfl

/-! ### storeRaw -/

@[simp] theorem storeRaw_adcT (t h : Word) (s : State) : (storeRaw t h s).adcT = t := rfl
@[simp] theorem storeRaw_adcH (t h : Word) (s : State) : (storeRaw t h s).adcH = h := rfl
@[simp] theorem storeRaw_tFine (t h : Word) (s : State) : (storeRaw t h s).tFine = s.tFine := rfl
@[simp] theorem storeRaw_tOut (t h : Word) (s : State) : (storeRaw t h s).tOut = s.tOut := rfl
@[simp] theorem storeRaw_hOut (t h : Word) (s : State) : (storeRaw t h s).hOut = s.hOut := rfl
@[simp] theorem storeRaw_curT (t h : Word) (s : State) : (storeRaw t h s).curT = s.curT := rfl
@[simp] theorem storeRaw_curH (t h : Word) (s : State) : (storeRaw t h s).curH = s.curH := rfl
@[simp] theorem storeRaw_cal (t h : Word) (s : State) : (storeRaw t h s).cal = s.cal := rfl
@[simp] theorem storeRaw_calValid (t h : Word) (s : State) : (storeRaw t h s).calValid = s.calValid := rfl
@[simp] theorem storeRaw_rawValid (t h : Word) (s : State) : (storeRaw t h s).rawValid = true := rfl
@[simp] theorem storeRaw_tfValid (t h : Word) (s : State) : (storeRaw t h s).tfValid = s.tfValid := rfl
@[simp] theorem storeRaw_toutValid (t h : Word) (s : State) : (storeRaw t h s).toutValid = s.toutValid := rfl
@[simp] theorem storeRaw_houtValid (t h : Word) (s : State) : (storeRaw t h s).houtValid = s.houtValid := rfl
@[simp] theorem storeRaw_curValid (t h : Word) (s : State) : (storeRaw t h s).curValid = s.curValid := rfl
@[simp] theorem storeRaw_lastFail (t h : Word) (s : State) : (storeRaw t h s).lastFail = s.lastFail := rfl
@[simp] theorem storeRaw_calErr (t h : Word) (s : State) : (storeRaw t h s).calErr = s.calErr := rfl
@[simp] theorem storeRaw_faulted (t h : Word) (s : State) : (storeRaw t h s).faulted = s.faulted := rfl
@[simp] theorem storeRaw_phase (t h : Word) (s : State) : (storeRaw t h s).phase = s.phase := rfl
@[simp] theorem storeRaw_fault (t h : Word) (s : State) : (storeRaw t h s).fault = s.fault := rfl
@[simp] theorem storeRaw_diagcnt (t h : Word) (s : State) : (storeRaw t h s).diagcnt = s.diagcnt := rfl
@[simp] theorem storeRaw_ib (t h : Word) (s : State) : (storeRaw t h s).ib = s.ib := rfl
@[simp] theorem storeRaw_params (t h : Word) (s : State) : (storeRaw t h s).params = s.params := rfl
@[simp] theorem storeRaw_pending (t h : Word) (s : State) : (storeRaw t h s).pending = s.pending := rfl
@[simp] theorem storeRaw_history (t h : Word) (s : State) : (storeRaw t h s).history = s.history := rfl
@[simp] theorem storeRaw_fresh (t h : Word) (s : State) : (storeRaw t h s).fresh = s.fresh := rfl

/-! ### storeTemperature -/

@[simp] theorem storeTemperature_adcT (t f : Word) (s : State) : (storeTemperature t f s).adcT = s.adcT := rfl
@[simp] theorem storeTemperature_adcH (t f : Word) (s : State) : (storeTemperature t f s).adcH = s.adcH := rfl
@[simp] theorem storeTemperature_tFine (t f : Word) (s : State) : (storeTemperature t f s).tFine = f := rfl
@[simp] theorem storeTemperature_tOut (t f : Word) (s : State) : (storeTemperature t f s).tOut = t := rfl
@[simp] theorem storeTemperature_hOut (t f : Word) (s : State) : (storeTemperature t f s).hOut = s.hOut := rfl
@[simp] theorem storeTemperature_curT (t f : Word) (s : State) : (storeTemperature t f s).curT = s.curT := rfl
@[simp] theorem storeTemperature_curH (t f : Word) (s : State) : (storeTemperature t f s).curH = s.curH := rfl
@[simp] theorem storeTemperature_cal (t f : Word) (s : State) : (storeTemperature t f s).cal = s.cal := rfl
@[simp] theorem storeTemperature_calValid (t f : Word) (s : State) : (storeTemperature t f s).calValid = s.calValid := rfl
@[simp] theorem storeTemperature_rawValid (t f : Word) (s : State) : (storeTemperature t f s).rawValid = s.rawValid := rfl
@[simp] theorem storeTemperature_tfValid (t f : Word) (s : State) : (storeTemperature t f s).tfValid = true := rfl
@[simp] theorem storeTemperature_toutValid (t f : Word) (s : State) : (storeTemperature t f s).toutValid = true := rfl
@[simp] theorem storeTemperature_houtValid (t f : Word) (s : State) : (storeTemperature t f s).houtValid = s.houtValid := rfl
@[simp] theorem storeTemperature_curValid (t f : Word) (s : State) : (storeTemperature t f s).curValid = s.curValid := rfl
@[simp] theorem storeTemperature_lastFail (t f : Word) (s : State) : (storeTemperature t f s).lastFail = s.lastFail := rfl
@[simp] theorem storeTemperature_calErr (t f : Word) (s : State) : (storeTemperature t f s).calErr = s.calErr := rfl
@[simp] theorem storeTemperature_faulted (t f : Word) (s : State) : (storeTemperature t f s).faulted = s.faulted := rfl
@[simp] theorem storeTemperature_phase (t f : Word) (s : State) : (storeTemperature t f s).phase = s.phase := rfl
@[simp] theorem storeTemperature_fault (t f : Word) (s : State) : (storeTemperature t f s).fault = s.fault := rfl
@[simp] theorem storeTemperature_diagcnt (t f : Word) (s : State) : (storeTemperature t f s).diagcnt = s.diagcnt := rfl
@[simp] theorem storeTemperature_ib (t f : Word) (s : State) : (storeTemperature t f s).ib = s.ib := rfl
@[simp] theorem storeTemperature_params (t f : Word) (s : State) : (storeTemperature t f s).params = s.params := rfl
@[simp] theorem storeTemperature_pending (t f : Word) (s : State) : (storeTemperature t f s).pending = s.pending := rfl
@[simp] theorem storeTemperature_history (t f : Word) (s : State) : (storeTemperature t f s).history = s.history := rfl
@[simp] theorem storeTemperature_fresh (t f : Word) (s : State) : (storeTemperature t f s).fresh = s.fresh := rfl

/-! ### storeHumidity -/

@[simp] theorem storeHumidity_adcT (h : Word) (s : State) : (storeHumidity h s).adcT = s.adcT := rfl
@[simp] theorem storeHumidity_adcH (h : Word) (s : State) : (storeHumidity h s).adcH = s.adcH := rfl
@[simp] theorem storeHumidity_tFine (h : Word) (s : State) : (storeHumidity h s).tFine = s.tFine := rfl
@[simp] theorem storeHumidity_tOut (h : Word) (s : State) : (storeHumidity h s).tOut = s.tOut := rfl
@[simp] theorem storeHumidity_hOut (h : Word) (s : State) : (storeHumidity h s).hOut = h := rfl
@[simp] theorem storeHumidity_curT (h : Word) (s : State) : (storeHumidity h s).curT = s.curT := rfl
@[simp] theorem storeHumidity_curH (h : Word) (s : State) : (storeHumidity h s).curH = s.curH := rfl
@[simp] theorem storeHumidity_cal (h : Word) (s : State) : (storeHumidity h s).cal = s.cal := rfl
@[simp] theorem storeHumidity_calValid (h : Word) (s : State) : (storeHumidity h s).calValid = s.calValid := rfl
@[simp] theorem storeHumidity_rawValid (h : Word) (s : State) : (storeHumidity h s).rawValid = s.rawValid := rfl
@[simp] theorem storeHumidity_tfValid (h : Word) (s : State) : (storeHumidity h s).tfValid = s.tfValid := rfl
@[simp] theorem storeHumidity_toutValid (h : Word) (s : State) : (storeHumidity h s).toutValid = s.toutValid := rfl
@[simp] theorem storeHumidity_houtValid (h : Word) (s : State) : (storeHumidity h s).houtValid = true := rfl
@[simp] theorem storeHumidity_curValid (h : Word) (s : State) : (storeHumidity h s).curValid = s.curValid := rfl
@[simp] theorem storeHumidity_lastFail (h : Word) (s : State) : (storeHumidity h s).lastFail = s.lastFail := rfl
@[simp] theorem storeHumidity_calErr (h : Word) (s : State) : (storeHumidity h s).calErr = s.calErr := rfl
@[simp] theorem storeHumidity_faulted (h : Word) (s : State) : (storeHumidity h s).faulted = s.faulted := rfl
@[simp] theorem storeHumidity_phase (h : Word) (s : State) : (storeHumidity h s).phase = s.phase := rfl
@[simp] theorem storeHumidity_fault (h : Word) (s : State) : (storeHumidity h s).fault = s.fault := rfl
@[simp] theorem storeHumidity_diagcnt (h : Word) (s : State) : (storeHumidity h s).diagcnt = s.diagcnt := rfl
@[simp] theorem storeHumidity_ib (h : Word) (s : State) : (storeHumidity h s).ib = s.ib := rfl
@[simp] theorem storeHumidity_params (h : Word) (s : State) : (storeHumidity h s).params = s.params := rfl
@[simp] theorem storeHumidity_pending (h : Word) (s : State) : (storeHumidity h s).pending = s.pending := rfl
@[simp] theorem storeHumidity_history (h : Word) (s : State) : (storeHumidity h s).history = s.history := rfl
@[simp] theorem storeHumidity_fresh (h : Word) (s : State) : (storeHumidity h s).fresh = s.fresh := rfl

/-! ### publishReading -/

@[simp] theorem publishReading_adcT (t h : Word) (s : State) : (publishReading t h s).adcT = s.adcT := rfl
@[simp] theorem publishReading_adcH (t h : Word) (s : State) : (publishReading t h s).adcH = s.adcH := rfl
@[simp] theorem publishReading_tFine (t h : Word) (s : State) : (publishReading t h s).tFine = s.tFine := rfl
@[simp] theorem publishReading_tOut (t h : Word) (s : State) : (publishReading t h s).tOut = s.tOut := rfl
@[simp] theorem publishReading_hOut (t h : Word) (s : State) : (publishReading t h s).hOut = s.hOut := rfl
@[simp] theorem publishReading_curT (t h : Word) (s : State) : (publishReading t h s).curT = t := rfl
@[simp] theorem publishReading_curH (t h : Word) (s : State) : (publishReading t h s).curH = h := rfl
@[simp] theorem publishReading_cal (t h : Word) (s : State) : (publishReading t h s).cal = s.cal := rfl
@[simp] theorem publishReading_calValid (t h : Word) (s : State) : (publishReading t h s).calValid = s.calValid := rfl
@[simp] theorem publishReading_rawValid (t h : Word) (s : State) : (publishReading t h s).rawValid = s.rawValid := rfl
@[simp] theorem publishReading_tfValid (t h : Word) (s : State) : (publishReading t h s).tfValid = s.tfValid := rfl
@[simp] theorem publishReading_toutValid (t h : Word) (s : State) : (publishReading t h s).toutValid = s.toutValid := rfl
@[simp] theorem publishReading_houtValid (t h : Word) (s : State) : (publishReading t h s).houtValid = s.houtValid := rfl
@[simp] theorem publishReading_curValid (t h : Word) (s : State) : (publishReading t h s).curValid = true := rfl
@[simp] theorem publishReading_lastFail (t h : Word) (s : State) : (publishReading t h s).lastFail = s.lastFail := rfl
@[simp] theorem publishReading_calErr (t h : Word) (s : State) : (publishReading t h s).calErr = s.calErr := rfl
@[simp] theorem publishReading_faulted (t h : Word) (s : State) : (publishReading t h s).faulted = s.faulted := rfl
@[simp] theorem publishReading_phase (t h : Word) (s : State) : (publishReading t h s).phase = s.phase := rfl
@[simp] theorem publishReading_fault (t h : Word) (s : State) : (publishReading t h s).fault = s.fault := rfl
@[simp] theorem publishReading_diagcnt (t h : Word) (s : State) : (publishReading t h s).diagcnt = s.diagcnt := rfl
@[simp] theorem publishReading_ib (t h : Word) (s : State) : (publishReading t h s).ib = s.ib := rfl
@[simp] theorem publishReading_params (t h : Word) (s : State) : (publishReading t h s).params = s.params := rfl
@[simp] theorem publishReading_pending (t h : Word) (s : State) : (publishReading t h s).pending = s.pending := rfl
@[simp] theorem publishReading_history (t h : Word) (s : State) : (publishReading t h s).history = s.history := rfl
@[simp] theorem publishReading_fresh (t h : Word) (s : State) : (publishReading t h s).fresh = s.fresh := rfl

/-! ### zeroReading -/

@[simp] theorem zeroReading_adcT (s : State) : (zeroReading s).adcT = s.adcT := rfl
@[simp] theorem zeroReading_adcH (s : State) : (zeroReading s).adcH = s.adcH := rfl
@[simp] theorem zeroReading_tFine (s : State) : (zeroReading s).tFine = s.tFine := rfl
@[simp] theorem zeroReading_tOut (s : State) : (zeroReading s).tOut = s.tOut := rfl
@[simp] theorem zeroReading_hOut (s : State) : (zeroReading s).hOut = s.hOut := rfl
@[simp] theorem zeroReading_curT (s : State) : (zeroReading s).curT = 0 := rfl
@[simp] theorem zeroReading_curH (s : State) : (zeroReading s).curH = 0 := rfl
@[simp] theorem zeroReading_cal (s : State) : (zeroReading s).cal = s.cal := rfl
@[simp] theorem zeroReading_calValid (s : State) : (zeroReading s).calValid = s.calValid := rfl
@[simp] theorem zeroReading_rawValid (s : State) : (zeroReading s).rawValid = s.rawValid := rfl
@[simp] theorem zeroReading_tfValid (s : State) : (zeroReading s).tfValid = s.tfValid := rfl
@[simp] theorem zeroReading_toutValid (s : State) : (zeroReading s).toutValid = s.toutValid := rfl
@[simp] theorem zeroReading_houtValid (s : State) : (zeroReading s).houtValid = s.houtValid := rfl
@[simp] theorem zeroReading_curValid (s : State) : (zeroReading s).curValid = false := rfl
@[simp] theorem zeroReading_lastFail (s : State) : (zeroReading s).lastFail = s.lastFail := rfl
@[simp] theorem zeroReading_calErr (s : State) : (zeroReading s).calErr = s.calErr := rfl
@[simp] theorem zeroReading_faulted (s : State) : (zeroReading s).faulted = s.faulted := rfl
@[simp] theorem zeroReading_phase (s : State) : (zeroReading s).phase = s.phase := rfl
@[simp] theorem zeroReading_fault (s : State) : (zeroReading s).fault = s.fault := rfl
@[simp] theorem zeroReading_diagcnt (s : State) : (zeroReading s).diagcnt = s.diagcnt := rfl
@[simp] theorem zeroReading_ib (s : State) : (zeroReading s).ib = s.ib := rfl
@[simp] theorem zeroReading_params (s : State) : (zeroReading s).params = s.params := rfl
@[simp] theorem zeroReading_pending (s : State) : (zeroReading s).pending = s.pending := rfl
@[simp] theorem zeroReading_history (s : State) : (zeroReading s).history = s.history := rfl
@[simp] theorem zeroReading_fresh (s : State) : (zeroReading s).fresh = s.fresh := rfl

/-! ### setLastFail -/

@[simp] theorem setLastFail_adcT (b : Bool) (s : State) : (setLastFail b s).adcT = s.adcT := rfl
@[simp] theorem setLastFail_adcH (b : Bool) (s : State) : (setLastFail b s).adcH = s.adcH := rfl
@[simp] theorem setLastFail_tFine (b : Bool) (s : State) : (setLastFail b s).tFine = s.tFine := rfl
@[simp] theorem setLastFail_tOut (b : Bool) (s : State) : (setLastFail b s).tOut = s.tOut := rfl
@[simp] theorem setLastFail_hOut (b : Bool) (s : State) : (setLastFail b s).hOut = s.hOut := rfl
@[simp] theorem setLastFail_curT (b : Bool) (s : State) : (setLastFail b s).curT = s.curT := rfl
@[simp] theorem setLastFail_curH (b : Bool) (s : State) : (setLastFail b s).curH = s.curH := rfl
@[simp] theorem setLastFail_cal (b : Bool) (s : State) : (setLastFail b s).cal = s.cal := rfl
@[simp] theorem setLastFail_calValid (b : Bool) (s : State) : (setLastFail b s).calValid = s.calValid := rfl
@[simp] theorem setLastFail_rawValid (b : Bool) (s : State) : (setLastFail b s).rawValid = s.rawValid := rfl
@[simp] theorem setLastFail_tfValid (b : Bool) (s : State) : (setLastFail b s).tfValid = s.tfValid := rfl
@[simp] theorem setLastFail_toutValid (b : Bool) (s : State) : (setLastFail b s).toutValid = s.toutValid := rfl
@[simp] theorem setLastFail_houtValid (b : Bool) (s : State) : (setLastFail b s).houtValid = s.houtValid := rfl
@[simp] theorem setLastFail_curValid (b : Bool) (s : State) : (setLastFail b s).curValid = s.curValid := rfl
@[simp] theorem setLastFail_lastFail (b : Bool) (s : State) : (setLastFail b s).lastFail = b := rfl
@[simp] theorem setLastFail_calErr (b : Bool) (s : State) : (setLastFail b s).calErr = s.calErr := rfl
@[simp] theorem setLastFail_faulted (b : Bool) (s : State) : (setLastFail b s).faulted = s.faulted := rfl
@[simp] theorem setLastFail_phase (b : Bool) (s : State) : (setLastFail b s).phase = s.phase := rfl
@[simp] theorem setLastFail_fault (b : Bool) (s : State) : (setLastFail b s).fault = s.fault := rfl
@[simp] theorem setLastFail_diagcnt (b : Bool) (s : State) : (setLastFail b s).diagcnt = s.diagcnt := rfl
@[simp] theorem setLastFail_ib (b : Bool) (s : State) : (setLastFail b s).ib = s.ib := rfl
@[simp] theorem setLastFail_params (b : Bool) (s : State) : (setLastFail b s).params = s.params := rfl
@[simp] theorem setLastFail_pending (b : Bool) (s : State) : (setLastFail b s).pending = s.pending := rfl
@[simp] theorem setLastFail_history (b : Bool) (s : State) : (setLastFail b s).history = s.history := rfl
@[simp] theorem setLastFail_fresh (b : Bool) (s : State) : (setLastFail b s).fresh = s.fresh := rfl

/-! ### countDiag -/

@[simp] theorem countDiag_adcT (s : State) : (countDiag s).adcT = s.adcT := rfl
@[simp] theorem countDiag_adcH (s : State) : (countDiag s).adcH = s.adcH := rfl
@[simp] theorem countDiag_tFine (s : State) : (countDiag s).tFine = s.tFine := rfl
@[simp] theorem countDiag_tOut (s : State) : (countDiag s).tOut = s.tOut := rfl
@[simp] theorem countDiag_hOut (s : State) : (countDiag s).hOut = s.hOut := rfl
@[simp] theorem countDiag_curT (s : State) : (countDiag s).curT = s.curT := rfl
@[simp] theorem countDiag_curH (s : State) : (countDiag s).curH = s.curH := rfl
@[simp] theorem countDiag_cal (s : State) : (countDiag s).cal = s.cal := rfl
@[simp] theorem countDiag_calValid (s : State) : (countDiag s).calValid = s.calValid := rfl
@[simp] theorem countDiag_rawValid (s : State) : (countDiag s).rawValid = s.rawValid := rfl
@[simp] theorem countDiag_tfValid (s : State) : (countDiag s).tfValid = s.tfValid := rfl
@[simp] theorem countDiag_toutValid (s : State) : (countDiag s).toutValid = s.toutValid := rfl
@[simp] theorem countDiag_houtValid (s : State) : (countDiag s).houtValid = s.houtValid := rfl
@[simp] theorem countDiag_curValid (s : State) : (countDiag s).curValid = s.curValid := rfl
@[simp] theorem countDiag_lastFail (s : State) : (countDiag s).lastFail = s.lastFail := rfl
@[simp] theorem countDiag_calErr (s : State) : (countDiag s).calErr = s.calErr := rfl
@[simp] theorem countDiag_faulted (s : State) : (countDiag s).faulted = s.faulted := rfl
@[simp] theorem countDiag_phase (s : State) : (countDiag s).phase = s.phase := rfl
@[simp] theorem countDiag_fault (s : State) : (countDiag s).fault = s.fault := rfl
@[simp] theorem countDiag_diagcnt (s : State) : (countDiag s).diagcnt = s.diagcnt + 1 := rfl
@[simp] theorem countDiag_ib (s : State) : (countDiag s).ib = s.ib := rfl
@[simp] theorem countDiag_params (s : State) : (countDiag s).params = s.params := rfl
@[simp] theorem countDiag_pending (s : State) : (countDiag s).pending = s.pending := rfl
@[simp] theorem countDiag_history (s : State) : (countDiag s).history = s.history := rfl
@[simp] theorem countDiag_fresh (s : State) : (countDiag s).fresh = s.fresh := rfl

/-! ### setPhase -/

@[simp] theorem setPhase_adcT (b : Bool) (s : State) : (setPhase b s).adcT = s.adcT := rfl
@[simp] theorem setPhase_adcH (b : Bool) (s : State) : (setPhase b s).adcH = s.adcH := rfl
@[simp] theorem setPhase_tFine (b : Bool) (s : State) : (setPhase b s).tFine = s.tFine := rfl
@[simp] theorem setPhase_tOut (b : Bool) (s : State) : (setPhase b s).tOut = s.tOut := rfl
@[simp] theorem setPhase_hOut (b : Bool) (s : State) : (setPhase b s).hOut = s.hOut := rfl
@[simp] theorem setPhase_curT (b : Bool) (s : State) : (setPhase b s).curT = s.curT := rfl
@[simp] theorem setPhase_curH (b : Bool) (s : State) : (setPhase b s).curH = s.curH := rfl
@[simp] theorem setPhase_cal (b : Bool) (s : State) : (setPhase b s).cal = s.cal := rfl
@[simp] theorem setPhase_calValid (b : Bool) (s : State) : (setPhase b s).calValid = s.calValid := rfl
@[simp] theorem setPhase_rawValid (b : Bool) (s : State) : (setPhase b s).rawValid = s.rawValid := rfl
@[simp] theorem setPhase_tfValid (b : Bool) (s : State) : (setPhase b s).tfValid = s.tfValid := rfl
@[simp] theorem setPhase_toutValid (b : Bool) (s : State) : (setPhase b s).toutValid = s.toutValid := rfl
@[simp] theorem setPhase_houtValid (b : Bool) (s : State) : (setPhase b s).houtValid = s.houtValid := rfl
@[simp] theorem setPhase_curValid (b : Bool) (s : State) : (setPhase b s).curValid = s.curValid := rfl
@[simp] theorem setPhase_lastFail (b : Bool) (s : State) : (setPhase b s).lastFail = s.lastFail := rfl
@[simp] theorem setPhase_calErr (b : Bool) (s : State) : (setPhase b s).calErr = s.calErr := rfl
@[simp] theorem setPhase_faulted (b : Bool) (s : State) : (setPhase b s).faulted = s.faulted := rfl
@[simp] theorem setPhase_phase (b : Bool) (s : State) : (setPhase b s).phase = b := rfl
@[simp] theorem setPhase_fault (b : Bool) (s : State) : (setPhase b s).fault = s.fault := rfl
@[simp] theorem setPhase_diagcnt (b : Bool) (s : State) : (setPhase b s).diagcnt = s.diagcnt := rfl
@[simp] theorem setPhase_ib (b : Bool) (s : State) : (setPhase b s).ib = s.ib := rfl
@[simp] theorem setPhase_params (b : Bool) (s : State) : (setPhase b s).params = s.params := rfl
@[simp] theorem setPhase_pending (b : Bool) (s : State) : (setPhase b s).pending = s.pending := rfl
@[simp] theorem setPhase_history (b : Bool) (s : State) : (setPhase b s).history = s.history := rfl
@[simp] theorem setPhase_fresh (b : Bool) (s : State) : (setPhase b s).fresh = s.fresh := rfl

/-! ### recordFault -/

@[simp] theorem recordFault_adcT (c : FaultCause) (cw : Command) (s : State) : (recordFault c cw s).adcT = s.adcT := rfl
@[simp] theorem recordFault_adcH (c : FaultCause) (cw : Command) (s : State) : (recordFault c cw s).adcH = s.adcH := rfl
@[simp] theorem recordFault_tFine (c : FaultCause) (cw : Command) (s : State) : (recordFault c cw s).tFine = s.tFine := rfl
@[simp] theorem recordFault_tOut (c : FaultCause) (cw : Command) (s : State) : (recordFault c cw s).tOut = s.tOut := rfl
@[simp] theorem recordFault_hOut (c : FaultCause) (cw : Command) (s : State) : (recordFault c cw s).hOut = s.hOut := rfl
@[simp] theorem recordFault_curT (c : FaultCause) (cw : Command) (s : State) : (recordFault c cw s).curT = s.curT := rfl
@[simp] theorem recordFault_curH (c : FaultCause) (cw : Command) (s : State) : (recordFault c cw s).curH = s.curH := rfl
@[simp] theorem recordFault_cal (c : FaultCause) (cw : Command) (s : State) : (recordFault c cw s).cal = s.cal := rfl
@[simp] theorem recordFault_calValid (c : FaultCause) (cw : Command) (s : State) : (recordFault c cw s).calValid = s.calValid := rfl
@[simp] theorem recordFault_rawValid (c : FaultCause) (cw : Command) (s : State) : (recordFault c cw s).rawValid = s.rawValid := rfl
@[simp] theorem recordFault_tfValid (c : FaultCause) (cw : Command) (s : State) : (recordFault c cw s).tfValid = s.tfValid := rfl
@[simp] theorem recordFault_toutValid (c : FaultCause) (cw : Command) (s : State) : (recordFault c cw s).toutValid = s.toutValid := rfl
@[simp] theorem recordFault_houtValid (c : FaultCause) (cw : Command) (s : State) : (recordFault c cw s).houtValid = s.houtValid := rfl
@[simp] theorem recordFault_curValid (c : FaultCause) (cw : Command) (s : State) : (recordFault c cw s).curValid = s.curValid := rfl
@[simp] theorem recordFault_lastFail (c : FaultCause) (cw : Command) (s : State) : (recordFault c cw s).lastFail = s.lastFail := rfl
@[simp] theorem recordFault_calErr (c : FaultCause) (cw : Command) (s : State) : (recordFault c cw s).calErr = s.calErr := rfl
@[simp] theorem recordFault_faulted (c : FaultCause) (cw : Command) (s : State) : (recordFault c cw s).faulted = true := rfl
@[simp] theorem recordFault_phase (c : FaultCause) (cw : Command) (s : State) : (recordFault c cw s).phase = s.phase := rfl
@[simp] theorem recordFault_fault (c : FaultCause) (cw : Command) (s : State) : (recordFault c cw s).fault = faultWord c cw := rfl
@[simp] theorem recordFault_diagcnt (c : FaultCause) (cw : Command) (s : State) : (recordFault c cw s).diagcnt = s.diagcnt := rfl
@[simp] theorem recordFault_ib (c : FaultCause) (cw : Command) (s : State) : (recordFault c cw s).ib = s.ib := rfl
@[simp] theorem recordFault_params (c : FaultCause) (cw : Command) (s : State) : (recordFault c cw s).params = s.params := rfl
@[simp] theorem recordFault_pending (c : FaultCause) (cw : Command) (s : State) : (recordFault c cw s).pending = s.pending := rfl
@[simp] theorem recordFault_history (c : FaultCause) (cw : Command) (s : State) : (recordFault c cw s).history = s.history := rfl
@[simp] theorem recordFault_fresh (c : FaultCause) (cw : Command) (s : State) : (recordFault c cw s).fresh = s.fresh := rfl

/-! ### setPending -/

@[simp] theorem setPending_adcT (ws : List Command) (s : State) : (setPending ws s).adcT = s.adcT := rfl
@[simp] theorem setPending_adcH (ws : List Command) (s : State) : (setPending ws s).adcH = s.adcH := rfl
@[simp] theorem setPending_tFine (ws : List Command) (s : State) : (setPending ws s).tFine = s.tFine := rfl
@[simp] theorem setPending_tOut (ws : List Command) (s : State) : (setPending ws s).tOut = s.tOut := rfl
@[simp] theorem setPending_hOut (ws : List Command) (s : State) : (setPending ws s).hOut = s.hOut := rfl
@[simp] theorem setPending_curT (ws : List Command) (s : State) : (setPending ws s).curT = s.curT := rfl
@[simp] theorem setPending_curH (ws : List Command) (s : State) : (setPending ws s).curH = s.curH := rfl
@[simp] theorem setPending_cal (ws : List Command) (s : State) : (setPending ws s).cal = s.cal := rfl
@[simp] theorem setPending_calValid (ws : List Command) (s : State) : (setPending ws s).calValid = s.calValid := rfl
@[simp] theorem setPending_rawValid (ws : List Command) (s : State) : (setPending ws s).rawValid = s.rawValid := rfl
@[simp] theorem setPending_tfValid (ws : List Command) (s : State) : (setPending ws s).tfValid = s.tfValid := rfl
@[simp] theorem setPending_toutValid (ws : List Command) (s : State) : (setPending ws s).toutValid = s.toutValid := rfl
@[simp] theorem setPending_houtValid (ws : List Command) (s : State) : (setPending ws s).houtValid = s.houtValid := rfl
@[simp] theorem setPending_curValid (ws : List Command) (s : State) : (setPending ws s).curValid = s.curValid := rfl
@[simp] theorem setPending_lastFail (ws : List Command) (s : State) : (setPending ws s).lastFail = s.lastFail := rfl
@[simp] theorem setPending_calErr (ws : List Command) (s : State) : (setPending ws s).calErr = s.calErr := rfl
@[simp] theorem setPending_faulted (ws : List Command) (s : State) : (setPending ws s).faulted = s.faulted := rfl
@[simp] theorem setPending_phase (ws : List Command) (s : State) : (setPending ws s).phase = s.phase := rfl
@[simp] theorem setPending_fault (ws : List Command) (s : State) : (setPending ws s).fault = s.fault := rfl
@[simp] theorem setPending_diagcnt (ws : List Command) (s : State) : (setPending ws s).diagcnt = s.diagcnt := rfl
@[simp] theorem setPending_ib (ws : List Command) (s : State) : (setPending ws s).ib = s.ib := rfl
@[simp] theorem setPending_params (ws : List Command) (s : State) : (setPending ws s).params = s.params := rfl
@[simp] theorem setPending_pending (ws : List Command) (s : State) : (setPending ws s).pending = ws := rfl
@[simp] theorem setPending_history (ws : List Command) (s : State) : (setPending ws s).history = s.history := rfl
@[simp] theorem setPending_fresh (ws : List Command) (s : State) : (setPending ws s).fresh = s.fresh := rfl

/-! ### resetEngine -/

@[simp] theorem resetEngine_adcT (s : State) : (resetEngine s).adcT = Config.freeWord s.fresh := rfl
@[simp] theorem resetEngine_adcH (s : State) : (resetEngine s).adcH = Config.freeWord (s.fresh + 1) := rfl
@[simp] theorem resetEngine_tFine (s : State) : (resetEngine s).tFine = Config.freeWord (s.fresh + 2) := rfl
@[simp] theorem resetEngine_tOut (s : State) : (resetEngine s).tOut = Config.freeWord (s.fresh + 3) := rfl
@[simp] theorem resetEngine_hOut (s : State) : (resetEngine s).hOut = Config.freeWord (s.fresh + 4) := rfl
@[simp] theorem resetEngine_curT (s : State) : (resetEngine s).curT = 0 := rfl
@[simp] theorem resetEngine_curH (s : State) : (resetEngine s).curH = 0 := rfl
@[simp] theorem resetEngine_cal (s : State) : (resetEngine s).cal = Config.freeCalibration s.fresh := rfl
@[simp] theorem resetEngine_calValid (s : State) : (resetEngine s).calValid = false := rfl
@[simp] theorem resetEngine_rawValid (s : State) : (resetEngine s).rawValid = false := rfl
@[simp] theorem resetEngine_tfValid (s : State) : (resetEngine s).tfValid = false := rfl
@[simp] theorem resetEngine_toutValid (s : State) : (resetEngine s).toutValid = false := rfl
@[simp] theorem resetEngine_houtValid (s : State) : (resetEngine s).houtValid = false := rfl
@[simp] theorem resetEngine_curValid (s : State) : (resetEngine s).curValid = false := rfl
@[simp] theorem resetEngine_lastFail (s : State) : (resetEngine s).lastFail = false := rfl
@[simp] theorem resetEngine_calErr (s : State) : (resetEngine s).calErr = false := rfl
@[simp] theorem resetEngine_faulted (s : State) : (resetEngine s).faulted = false := rfl
@[simp] theorem resetEngine_phase (s : State) : (resetEngine s).phase = false := rfl
@[simp] theorem resetEngine_fault (s : State) : (resetEngine s).fault = 0 := rfl
@[simp] theorem resetEngine_diagcnt (s : State) : (resetEngine s).diagcnt = 0 := rfl
@[simp] theorem resetEngine_ib (s : State) : (resetEngine s).ib = [] := rfl
@[simp] theorem resetEngine_params (s : State) : (resetEngine s).params = s.params := rfl
@[simp] theorem resetEngine_pending (s : State) : (resetEngine s).pending = s.pending := rfl
@[simp] theorem resetEngine_history (s : State) : (resetEngine s).history = s.history := rfl
@[simp] theorem resetEngine_fresh (s : State) : (resetEngine s).fresh = s.fresh + 5 := rfl

end Sys2Proof.Machine
end

