-- ==== Sys2Proof/Laws/Ops.lean ====
section
/-!
SUPPORT. Everything the shared operations can do: fault entry (spec/60_exceptions.md R176), one command from start to end
(R177, R179), and the packing of FAULT and STATUS (spec/10_state.md R32, R33).
-/

namespace Sys2Proof.Machine

theorem enterFault_of_not_faulted {s : State} (h : s.faulted = false) (c : FaultCause) (cw : Command) :
    enterFault c cw s = recordFault c cw s := by
  simp [enterFault, h]

theorem enterFault_of_faulted {s : State} (h : s.faulted = true) (c : FaultCause) (cw : Command) :
    enterFault c cw s = s := by
  simp [enterFault, h]

/-- A command is taken unless the engine is faulted and the command is none of the three of R177. -/
def taken (i : Instr) (s : State) : Prop := s.faulted = false ∨ takenWhenFaulted i = true

/-- EVERYTHING A COMMAND CAN DO: it is dropped; or its body runs whole; or its body raises a fault, which the engine records. -/
theorem runCommand_cases (i : Instr) (body : State → Except FaultCause State) (s : State) :
    (¬ taken i s ∧ runCommand i body s = .next s)
      ∨ (taken i s ∧ ∃ t, body s = .ok t ∧ runCommand i body s = .next t)
      ∨ (taken i s ∧ ∃ c, body s = .error c ∧ runCommand i body s = .next (enterFault c (encode i) s)) := by
  by_cases h : s.faulted && !takenWhenFaulted i
  · refine .inl ⟨?_, by simp only [runCommand, h, if_true]⟩
    simp only [Bool.and_eq_true, Bool.not_eq_true'] at h
    rintro (h' | h') <;> simp_all
  · have ht : taken i s := by
      unfold taken
      cases hf : s.faulted <;> cases hi : takenWhenFaulted i <;> simp_all
    cases hb : body s with
    | ok t => exact .inr (.inl ⟨ht, t, rfl, by simp [runCommand, h, hb]⟩)
    | error c => exact .inr (.inr ⟨ht, c, rfl, by simp [runCommand, h, hb]⟩)

/-- A command always answers a next state (R211). -/
theorem runCommand_next (i : Instr) (body : State → Except FaultCause State) (s : State) :
    ∃ t, runCommand i body s = .next t := by
  rcases runCommand_cases i body s with ⟨_, h⟩ | ⟨_, t, _, h⟩ | ⟨_, c, _, h⟩
  exacts [⟨_, h⟩, ⟨_, h⟩, ⟨_, h⟩]

theorem runCommand_ok {i : Instr} {body : State → Except FaultCause State} {s t : State}
    (hf : s.faulted = false) (hb : body s = .ok t) : runCommand i body s = .next t := by
  simp [runCommand, hf, hb]

theorem runCommand_error {i : Instr} {body : State → Except FaultCause State} {s : State} {c : FaultCause}
    (hf : s.faulted = false) (hb : body s = .error c) :
    runCommand i body s = .next (recordFault c (encode i) s) := by
  simp [runCommand, hf, hb, enterFault]

theorem runCommand_dropped {i : Instr} {body : State → Except FaultCause State} {s : State}
    (hf : s.faulted = true) (hi : takenWhenFaulted i = false) : runCommand i body s = .next s := by
  simp [runCommand, hf, hi]

theorem runCommand_taken {i : Instr} {body : State → Except FaultCause State} {s t : State}
    (hi : takenWhenFaulted i = true) (hb : body s = .ok t) : runCommand i body s = .next t := by
  simp [runCommand, hi, hb]

theorem causeCode_ne_zero (c : FaultCause) : causeCode c ≠ 0 := by
  cases c <;> decide

theorem faultCauseField_faultWord (c : FaultCause) (cw : Command) :
    faultCauseField (faultWord c cw) = causeCode c := by
  ext i hi
  interval_cases i <;> simp [faultCauseField, faultWord]

theorem faultCmdField_faultWord (c : FaultCause) (cw : Command) : faultCmdField (faultWord c cw) = cw := by
  ext i hi
  simp only [faultCmdField, faultWord, BitVec.getElem_extractLsb', BitVec.getLsbD_or, BitVec.getLsbD_shiftLeft,
    BitVec.getLsbD_setWidth]
  have h1 : (causeCode c).getLsbD (16 + i) = false := BitVec.getLsbD_of_ge _ _ (by omega)
  have h2 : 16 + i < 32 := by omega
  have h3 : i < 32 := by omega
  simp [h1, h2, h3, BitVec.getLsbD_eq_getElem hi]

/-- Bit `k` of a word that holds one flag at bit `n`. -/
theorem flagBit_getLsbD (b : Bool) (n k : Nat) (hn : n < 32) :
    (flagBit b n).getLsbD k = (b && decide (k = n)) := by
  cases b
  · simp [flagBit]
  · simp only [flagBit, if_true, BitVec.getLsbD_shiftLeft, BitVec.getLsbD_one, Bool.true_and]
    by_cases h : k = n
    · subst h
      simp [hn]
    · have : k < n ∨ n < k := by omega
      rcases this with h' | h'
      · simp [h', h]
      · have h2 : k - n ≠ 0 := by omega
        simp [h, h2]

/-- `emit` is the only way a command reaches the ports: it appends one event. -/
theorem emit_history_length (e : Event) (s : State) : (emit e s).history.length = s.history.length + 1 := by
  simp

end Sys2Proof.Machine
end

