-- ==== Sys2Proof/Laws/Commands.lean ====
section
/-!
SUPPORT. Everything the body of each command can do, one lemma a command: its faults in the order the spec tests them, and
the state it leaves. The provers cite these in place of the meanings.
-/

namespace Sys2Proof.Machine

/-- EVERYTHING `Acquire` CAN DO (spec/41_acquisition.md R111): a fault, a failure, or a raw reading. -/
theorem acquire_cases (m : Memory) :
    acquire m = .error .uninitInput
      ∨ acquire m = .ok none
      ∨ ∃ raw : Vector Byte 8, (∀ k, (h : k < 8) → memRead m (rawBase.toNat + k) = some raw[k])
          ∧ acquire m = .ok (some (BitVec.ofNat 32 (decodeT raw), BitVec.ofNat 32 (decodeH raw))) := by
  unfold acquire
  rcases loadCell_cases m bstId with ⟨sid, -, h⟩ | ⟨-, h⟩
  · simp only [h]
    by_cases hs : statusFailed sid = true
    · simp [hs]
    · simp only [hs]
      rcases loadCell_cases m idCell with ⟨id, -, h⟩ | ⟨-, h⟩
      · simp only [h]
        by_cases hid : (id != chipIdExpected) = true
        · simp [hid]
        · simp only [hid]
          rcases loadCell_cases m bstRaw with ⟨sraw, -, h⟩ | ⟨-, h⟩
          · simp only [h]
            by_cases hr : statusFailed sraw = true
            · simp [hr]
            · simp only [hr]
              rcases loadRange_cases m rawBase 8 with ⟨raw, hraw, h⟩ | ⟨-, h⟩
              · exact .inr (.inr ⟨raw, hraw, by simp [h]⟩)
              · simp [h]
          · simp [h]
      · simp [h]
  · simp [h]

/-- EVERYTHING `CALLD` CAN DO (spec/40_calibration.md R100). -/
theorem calldBody_cases (s : State) :
    calldBody s = .error .uninitInput
      ∨ calldBody s = .ok (loseCalibration (endSession s))
      ∨ ∃ (c1 : Vector Byte 25) (c2 : Vector Byte 7),
          calldBody s = .ok (loadCalibration (unpack s.params.h45Signed c1 c2) (endSession s)) := by
  have hfail : calibrationReadFailed s = .error .uninitInput ∨ ∃ b, calibrationReadFailed s = .ok b := by
    unfold calibrationReadFailed
    cases s.params.calFailPolicy with
    | silent => exact .inr ⟨_, rfl⟩
    | error =>
      rcases loadCell_cases s.ib bstCal1 with ⟨s1, -, h⟩ | ⟨-, h⟩
      · rcases loadCell_cases s.ib bstCal2 with ⟨s2, -, h'⟩ | ⟨-, h'⟩
        · exact .inr ⟨statusFailed s1 || statusFailed s2, by simp only [h, h']⟩
        · exact .inl (by simp only [h, h'])
      · exact .inl (by simp only [h])
  unfold calldBody
  rcases hfail with h | ⟨b, h⟩
  · simp [h]
  · cases b
    · rcases loadRange_cases s.ib cal1Base 25 with ⟨c1, -, h1⟩ | ⟨-, h1⟩
      · rcases loadRange_cases s.ib cal2Base 7 with ⟨c2, -, h2⟩ | ⟨-, h2⟩
        · exact .inr (.inr ⟨c1, c2, by simp only [h, h1, h2]⟩)
        · exact .inl (by simp only [h, h1, h2])
      · exact .inl (by simp only [h, h1])
    · exact .inr (.inl (by simp only [h]))

/-- EVERYTHING `ACQ` CAN DO (R110). -/
theorem acqBody_cases (s : State) :
    acqBody s = .error .uninitInput
      ∨ acqBody s = .ok (setLastFail true s)
      ∨ ∃ raw : Vector Byte 8, acqBody s = .ok (setLastFail false (clearResults
          (storeRaw (BitVec.ofNat 32 (decodeT raw)) (BitVec.ofNat 32 (decodeH raw)) s))) := by
  unfold acqBody
  rcases acquire_cases s.ib with h | h | ⟨raw, -, h⟩
  · exact .inl (by simp only [h])
  · exact .inr (.inl (by simp only [h]))
  · exact .inr (.inr ⟨raw, by simp only [h]⟩)

/-- EVERYTHING `TCOMP` CAN DO (spec/42_temperature.md R120). -/
theorem tcompBody_cases (s : State) :
    (s.calValid = false ∧ tcompBody s = .error .calInvalid)
      ∨ (s.calValid = true ∧ s.rawValid = false ∧ tcompBody s = .error .rawInvalid)
      ∨ (s.calValid = true ∧ s.rawValid = true ∧ tcompBody s =
          .ok (storeTemperature (tempCompCal s.cal s.adcT).1 (tempCompCal s.cal s.adcT).2 s)) := by
  cases hc : s.calValid <;> cases hr : s.rawValid <;> simp [tcompBody, hc, hr]

/-- EVERYTHING `HCOMP` CAN DO (spec/43_humidity.md R130). -/
theorem hcompBody_cases (s : State) :
    (s.calValid = false ∧ hcompBody s = .error .calInvalid)
      ∨ (s.calValid = true ∧ s.rawValid = false ∧ hcompBody s = .error .rawInvalid)
      ∨ (s.calValid = true ∧ s.rawValid = true ∧ s.tfValid = false ∧ hcompBody s = .error .tfineInvalid)
      ∨ (s.calValid = true ∧ s.rawValid = true ∧ s.tfValid = true ∧ hcompBody s =
          .ok (storeHumidity (humComp s.params.hpoly s.cal s.tFine s.adcH) s)) := by
  cases hc : s.calValid <;> cases hr : s.rawValid <;> cases ht : s.tfValid <;> simp [hcompBody, hc, hr, ht]

/-- EVERYTHING `CYCLE` CAN DO (spec/44_cycle.md R141). -/
theorem cycleBody_cases (s : State) :
    (s.calValid = false ∧ cycleBody s = .error .calInvalid)
      ∨ (s.calValid = true ∧ cycleBody s = .error .uninitInput)
      ∨ (s.calValid = true ∧ cycleBody s = .ok (setPhase false (cycleFailed (setPhase true s))))
      ∨ (s.calValid = true ∧ ∃ raw : Vector Byte 8, cycleBody s = .ok (setPhase false
          (cycleSucceeded (BitVec.ofNat 32 (decodeT raw)) (BitVec.ofNat 32 (decodeH raw)) (setPhase true s)))) := by
  cases hc : s.calValid with
  | false => simp [cycleBody, hc]
  | true =>
    rcases acquire_cases s.ib with h | h | ⟨raw, -, h⟩
    · exact .inr (.inl ⟨rfl, by simp [cycleBody, hc, h]⟩)
    · exact .inr (.inr (.inl ⟨rfl, by simp [cycleBody, hc, h]⟩))
    · exact .inr (.inr (.inr ⟨rfl, raw, by simp [cycleBody, hc, h]⟩))

/-- EVERYTHING `WRB` CAN DO (spec/45_access_system.md R150). -/
theorem wrbBody_cases (addr : BitVec 6) (data : Byte) (s : State) :
    (addrAssigned addr = false ∧ wrbBody addr data s = .error .illegalAddr)
      ∨ (addrAssigned addr = true ∧ wrbBody addr data s = .ok (setIb (memWrite s.ib addr.toNat data) s)) := by
  cases h : addrAssigned addr <;> simp [wrbBody, h]

/-- EVERYTHING `RD` CAN DO (R152). -/
theorem rdBody_cases (reg : BitVec 6) (s : State) :
    (regOfNumber reg = none ∧ rdBody reg s = .error .illegalReg)
      ∨ (∃ r, regOfNumber reg = some r ∧ readable s r = false ∧ rdBody reg s = .error .uninitRead)
      ∨ (∃ r, regOfNumber reg = some r ∧ readable s r = true
          ∧ rdBody reg s = .ok (emit (.out (regValue s r)) s)) := by
  cases h : regOfNumber reg with
  | none => simp [rdBody, h]
  | some r => cases hr : readable s r <;> simp [rdBody, h, hr]

/-- The body of each command: what it does when it is taken. -/
def bodyOf : Instr → State → Except FaultCause State
  | .calld => calldBody
  | .acq => acqBody
  | .tcomp => tcompBody
  | .hcomp => hcompBody
  | .cycle => cycleBody
  | .srst => srstBody
  | .wrb addr data => wrbBody addr data
  | .rd reg => rdBody reg

/-- Every command is one run of its body (spec/20_memory.md R60). -/
theorem exec_eq_runCommand (i : Instr) (s : State) : exec i s = runCommand i (bodyOf i) s := by
  cases i <;> rfl

theorem exec_ok {i : Instr} {s t : State} (hf : s.faulted = false) (hb : bodyOf i s = .ok t) : exec i s = .next t :=
  (exec_eq_runCommand i s).trans (runCommand_ok hf hb)

theorem exec_error {i : Instr} {s : State} {c : FaultCause} (hf : s.faulted = false) (hb : bodyOf i s = .error c) :
    exec i s = .next (recordFault c (encode i) s) :=
  (exec_eq_runCommand i s).trans (runCommand_error hf hb)

/-- A body that runs whole never sets FAULTED (spec/60_exceptions.md R176). -/
theorem bodyOf_faulted {i : Instr} {s t : State} (hf : s.faulted = false) (h : bodyOf i s = .ok t) :
    t.faulted = false := by
  cases i <;> simp only [bodyOf] at h
  · rcases calldBody_cases s with e | e | ⟨_, _, e⟩ <;> rw [e] at h <;> cases h <;> simp [hf]
  · rcases acqBody_cases s with e | e | ⟨_, e⟩ <;> rw [e] at h <;> cases h <;> simp [hf]
  · rcases tcompBody_cases s with ⟨_, e⟩ | ⟨_, _, e⟩ | ⟨_, _, e⟩ <;> rw [e] at h <;> cases h
    simp [hf]
  · rcases hcompBody_cases s with ⟨_, e⟩ | ⟨_, _, e⟩ | ⟨_, _, _, e⟩ | ⟨_, _, _, e⟩ <;> rw [e] at h <;> cases h
    simp [hf]
  · rcases cycleBody_cases s with ⟨_, e⟩ | ⟨_, e⟩ | ⟨_, e⟩ | ⟨_, _, e⟩ <;> rw [e] at h <;> cases h <;>
      simp [hf, cycleFailed, cycleSucceeded]
  · cases h; simp
  · rcases wrbBody_cases _ _ s with ⟨_, e⟩ | ⟨_, e⟩ <;> rw [e] at h <;> cases h
    simp [hf]
  · rcases rdBody_cases _ s with ⟨_, e⟩ | ⟨_, _, _, e⟩ | ⟨_, _, _, e⟩ <;> rw [e] at h <;> cases h
    simp [hf]

end Sys2Proof.Machine
end

