-- ==== Sys2Proof/Laws/Decode.lean ====
section
/-!
SUPPORT. The fields of the encoded words (spec/30_encoding.md R79 to R81), one lemma a field, and the register-number table
read in both directions (R88).
-/

namespace Sys2Proof

theorem formatW_top (addr : BitVec 6) (data : Byte) : (formatW addr data).extractLsb' 14 2 = 0b01#2 := by
  ext i hi
  interval_cases i <;> simp [formatW]

theorem formatW_addr (addr : BitVec 6) (data : Byte) : (formatW addr data).extractLsb' 8 6 = addr := by
  ext i hi
  interval_cases i <;> simp [formatW]

theorem formatW_data (addr : BitVec 6) (data : Byte) : (formatW addr data).extractLsb' 0 8 = data := by
  ext i hi
  interval_cases i <;> simp [formatW]

theorem formatW_mask (addr : BitVec 6) (data : Byte) : formatW addr data &&& 0xC000#16 = 0x4000#16 := by
  ext i hi
  interval_cases i <;> simp [formatW]

theorem formatR_top (reg : BitVec 6) : (formatR reg).extractLsb' 14 2 = 0b10#2 := by
  revert reg; decide

theorem formatR_opcode (reg : BitVec 6) : (formatR reg).extractLsb' 12 4 = 0b1000#4 := by
  revert reg; decide

theorem formatR_zeros (reg : BitVec 6) : (formatR reg).extractLsb' 6 6 = 0#6 := by
  revert reg; decide

theorem formatR_reg (reg : BitVec 6) : (formatR reg).extractLsb' 0 6 = reg := by
  revert reg; decide

theorem formatR_mask (reg : BitVec 6) : formatR reg &&& 0xFFC0#16 = 0x8000#16 := by
  revert reg; decide

namespace Machine

theorem regOfNumber_regNumber (r : Reg) : regOfNumber (regNumber r) = some r := by
  cases r <;> decide

theorem regNumber_of_regOfNumber {n : BitVec 6} {r : Reg} (h : regOfNumber n = some r) : regNumber r = n := by
  have h' := List.find?_some h
  simpa using h'

/-- The 36 unassigned numbers (R88). -/
theorem regOfNumber_eq_none (n : BitVec 6) :
    regOfNumber n = none ↔ n.toNat = 0x03 ∨ (0x0B ≤ n.toNat ∧ n.toNat ≤ 0x0F) ∨ 0x22 ≤ n.toNat := by
  revert n; decide

end Machine

end Sys2Proof
end

