-- ==== Sys2Proof/Laws/Fields.lean ====
section
/-!
SUPPORT. The fields of the raw and calibration bytes as numbers (spec/30_encoding.md R70 to R73, spec/40_calibration.md R101,
R103, spec/41_acquisition.md R112): the shifts and ors of the rules as sums.
-/

namespace Sys2Proof.Machine

theorem toNat_le16 (lo hi : Byte) : (BitVec.ofNat 16 (le16 lo hi)).toNat = lo.toNat + 256 * hi.toNat := by
  have := lo.isLt
  have := hi.isLt
  rw [le16_eq, BitVec.toNat_ofNat]
  omega

theorem packH4_eq (b3 b4 : Byte) : packH4 b3 b4 = 16 * b3.toNat + b4.toNat % 16 := by
  have h : b4.toNat &&& 0x0F = b4.toNat % 16 := Nat.and_two_pow_sub_one_eq_mod b4.toNat 4
  rw [packH4, h, ← Nat.shiftLeft_add_eq_or_of_lt (by omega), Nat.shiftLeft_eq]
  omega

theorem packH5_eq (b4 b5 : Byte) : packH5 b4 b5 = 16 * b4.toNat + b5.toNat / 16 := by
  have := b5.isLt
  rw [packH5, Nat.shiftRight_eq_div_pow, ← Nat.shiftLeft_add_eq_or_of_lt (by omega), Nat.shiftLeft_eq]
  omega

theorem packH4_lt (b3 b4 : Byte) : packH4 b3 b4 < 4096 := by
  have := b3.isLt
  rw [packH4_eq]
  omega

theorem packH5_lt (b4 b5 : Byte) : packH5 b4 b5 < 4096 := by
  have := b4.isLt
  have := b5.isLt
  rw [packH5_eq]
  omega

theorem toNat_store12_false {h : Nat} (hh : h < 4096) : (store12 false h).toNat = h := by
  simp only [store12, Bool.false_eq_true, if_false, BitVec.toNat_ofNat]
  omega

theorem toInt_store12_true {h : Nat} (hh : h < 4096) :
    (store12 true h).toInt = if h < 2048 then (h : Int) else h - 4096 := by
  simp only [store12, if_true]
  rw [BitVec.toInt_signExtend_of_le (by omega), BitVec.toInt_eq_toNat_cond]
  simp only [BitVec.toNat_ofNat]
  omega

theorem decodeT_eq (raw : Vector Byte 8) :
    decodeT raw = raw[0].toNat * 4096 + raw[1].toNat * 16 + raw[2].toNat / 16 := by
  have := raw[1].isLt
  have := raw[2].isLt
  rw [decodeT, Nat.shiftRight_eq_div_pow, Nat.or_assoc,
    ← Nat.shiftLeft_add_eq_or_of_lt (b := raw[2].toNat / 2 ^ 4) (by omega),
    ← Nat.shiftLeft_add_eq_or_of_lt (by rw [Nat.shiftLeft_eq]; omega), Nat.shiftLeft_eq, Nat.shiftLeft_eq]
  omega

theorem decodeH_eq (raw : Vector Byte 8) : decodeH raw = raw[6].toNat * 256 + raw[7].toNat := by
  have := raw[7].isLt
  rw [decodeH, ← Nat.shiftLeft_add_eq_or_of_lt (by omega), Nat.shiftLeft_eq]

theorem decodeT_lt (raw : Vector Byte 8) : decodeT raw < 2 ^ 20 := by
  have := raw[0].isLt
  have := raw[1].isLt
  have := raw[2].isLt
  rw [decodeT_eq]
  omega

theorem decodeH_lt (raw : Vector Byte 8) : decodeH raw < 2 ^ 16 := by
  have := raw[6].isLt
  have := raw[7].isLt
  rw [decodeH_eq]
  omega

end Sys2Proof.Machine
end

