-- ==== Sys2Proof/Laws/PerInstr.lean ====
section
/-!
SUPPORT. Statements made once for each command. RowPattern: the encoder gives a word that matches its own row of the opcode
map, mask and match as R83 prints them.
-/

namespace Sys2Proof.Laws.RowPattern

/-- The word of a command agrees with its row of R83 on every bit the row fixes. -/
def Statement (i : Instr) : Prop := encode i &&& rowMask i = rowMatch i

theorem calld : Statement .calld := by unfold Statement; decide
theorem acq : Statement .acq := by unfold Statement; decide
theorem tcomp : Statement .tcomp := by unfold Statement; decide
theorem hcomp : Statement .hcomp := by unfold Statement; decide
theorem cycle : Statement .cycle := by unfold Statement; decide
theorem srst : Statement .srst := by unfold Statement; decide
theorem wrb (addr : BitVec 6) (data : Byte) : Statement (.wrb addr data) := formatW_mask addr data
theorem rd (reg : BitVec 6) : Statement (.rd reg) := formatR_mask reg

end Sys2Proof.Laws.RowPattern
end

