-- ==== Sys2Proof/Laws/Polynomial.lean ====
section
/-!
SUPPORT. The expressions for HPOLY stand for every function of the calibration set, `t_fine` and `adc_H` to i32
(spec/00_scope.md R8): the domain is finite, so a chain of tests for equality can give each point its own value.
-/

namespace Sys2Proof.Machine

open Config

theorem zextWord_injective {w : Nat} (h : w ≤ 32) : Function.Injective (zextWord : BitVec w → Word) := by
  intro a b hab
  apply BitVec.eq_of_toNat_eq
  have := congrArg BitVec.toNat hab
  rwa [zextWord, zextWord, BitVec.toNat_setWidth_of_le h, BitVec.toNat_setWidth_of_le h] at this

theorem sextWord_injective {w : Nat} (h : w ≤ 32) : Function.Injective (sextWord : BitVec w → Word) := by
  intro a b hab
  apply BitVec.eq_of_toInt_eq
  have := congrArg BitVec.toInt hab
  rwa [sextWord, sextWord, BitVec.toInt_signExtend_of_le h, BitVec.toInt_signExtend_of_le h] at this

/-- Two calibration sets with the same constants are the same. -/
theorem calWord_injective : Function.Injective calWord := by
  intro a b h
  have u16 : ∀ {k : CalConst} {x y : BitVec 16}, calWord a k = zextWord x → calWord b k = zextWord y → x = y :=
    fun {k} _ _ ha hb => zextWord_injective (by omega) (ha.symm.trans ((congrFun h k).trans hb))
  have i16 : ∀ {k : CalConst} {x y : BitVec 16}, calWord a k = sextWord x → calWord b k = sextWord y → x = y :=
    fun {k} _ _ ha hb => sextWord_injective (by omega) (ha.symm.trans ((congrFun h k).trans hb))
  have u8 : ∀ {k : CalConst} {x y : BitVec 8}, calWord a k = zextWord x → calWord b k = zextWord y → x = y :=
    fun {k} _ _ ha hb => zextWord_injective (by omega) (ha.symm.trans ((congrFun h k).trans hb))
  have i8 : ∀ {k : CalConst} {x y : BitVec 8}, calWord a k = sextWord x → calWord b k = sextWord y → x = y :=
    fun {k} _ _ ha hb => sextWord_injective (by omega) (ha.symm.trans ((congrFun h k).trans hb))
  obtain ⟨⟩ := a
  obtain ⟨⟩ := b
  simp only [Calibration.mk.injEq]
  exact ⟨u16 (k := .digT1) rfl rfl, i16 (k := .digT2) rfl rfl, i16 (k := .digT3) rfl rfl, u16 (k := .digP1) rfl rfl,
    i16 (k := .digP2) rfl rfl, i16 (k := .digP3) rfl rfl, i16 (k := .digP4) rfl rfl, i16 (k := .digP5) rfl rfl,
    i16 (k := .digP6) rfl rfl, i16 (k := .digP7) rfl rfl, i16 (k := .digP8) rfl rfl, i16 (k := .digP9) rfl rfl,
    u8 (k := .digH1) rfl rfl, i16 (k := .digH2) rfl rfl, u8 (k := .digH3) rfl rfl, i16 (k := .digH4) rfl rfl,
    i16 (k := .digH5) rfl rfl, i8 (k := .digH6) rfl rfl⟩

/-- The 18 names. -/
def allConsts : List CalConst :=
  [.digT1, .digT2, .digT3, .digP1, .digP2, .digP3, .digP4, .digP5, .digP6, .digP7, .digP8, .digP9,
   .digH1, .digH2, .digH3, .digH4, .digH5, .digH6]

theorem mem_allConsts (k : CalConst) : k ∈ allConsts := by
  cases k <;> decide

theorem finite_word {w : Nat} : Finite (BitVec w) :=
  Finite.of_injective BitVec.toFin fun _ _ h => BitVec.eq_of_toFin_eq h

theorem finite_calibration : Finite Calibration := by
  have : Finite Word := finite_word
  have : Finite CalConst := Set.finite_univ_iff.mp ((List.finite_toSet allConsts).subset fun k _ => mem_allConsts k)
  exact Finite.of_injective calWord calWord_injective

/-- `yes` where every expression of the list has the word beside it, else `no`. -/
def whereAll (tests : List (PolyExpr × Word)) (yes no : PolyExpr) : PolyExpr :=
  tests.foldr (fun t rest => .ifEq t.1 (.const t.2) rest no) yes

theorem polyValue_whereAll (c : Calibration) (tFine adcH : Word) (tests : List (PolyExpr × Word)) (yes no : PolyExpr) :
    polyValue c tFine adcH (whereAll tests yes no)
      = if ∀ t ∈ tests, polyValue c tFine adcH t.1 = t.2 then polyValue c tFine adcH yes else polyValue c tFine adcH no := by
  induction tests with
  | nil => simp [whereAll]
  | cons t rest ih =>
    simp only [whereAll, List.foldr_cons, polyValue, List.forall_mem_cons] at ih ⊢
    by_cases h : polyValue c tFine adcH t.1 = t.2
    · simp only [h, if_true, true_and, ih]
    · simp only [h, if_false, false_and]

/-- The tests that only one point of the domain passes. -/
def pointTests (p : Calibration × Word × Word) : List (PolyExpr × Word) :=
  (.tFine, p.2.1) :: (.adcH, p.2.2) :: allConsts.map fun k => (.cal k, calWord p.1 k)

theorem pointTests_iff (p : Calibration × Word × Word) (c : Calibration) (tFine adcH : Word) :
    (∀ t ∈ pointTests p, polyValue c tFine adcH t.1 = t.2) ↔ (c, tFine, adcH) = p := by
  obtain ⟨c', tFine', adcH'⟩ := p
  simp only [pointTests, List.forall_mem_cons, List.forall_mem_map, polyValue, Prod.mk.injEq]
  constructor
  · rintro ⟨h1, h2, h3⟩
    exact ⟨calWord_injective (funext fun k => h3 k (mem_allConsts k)), h1, h2⟩
  · rintro ⟨rfl, rfl, rfl⟩
    exact ⟨rfl, rfl, fun _ _ => rfl⟩

/-- Every function of the calibration set, `t_fine` and `adc_H` is the value of some expression. -/
theorem polyValue_surjective (f : Calibration → Word → Word → Word) :
    ∃ e : PolyExpr, ∀ c tFine adcH, polyValue c tFine adcH e = f c tFine adcH := by
  have : Finite Word := finite_word
  have : Finite Calibration := finite_calibration
  have key : ∀ s : Set (Calibration × Word × Word), s.Finite →
      ∃ e : PolyExpr, ∀ c tFine adcH, (c, tFine, adcH) ∈ s → polyValue c tFine adcH e = f c tFine adcH := by
    intro s hs
    induction s, hs using Set.Finite.induction_on with
    | empty => exact ⟨.const 0, fun _ _ _ h => h.elim⟩
    | @insert p s _ _ ih =>
      obtain ⟨e, he⟩ := ih
      refine ⟨whereAll (pointTests p) (.const (f p.1 p.2.1 p.2.2)) e, fun c tFine adcH h => ?_⟩
      rw [polyValue_whereAll]
      by_cases hp : (c, tFine, adcH) = p
      · rw [if_pos ((pointTests_iff p c tFine adcH).mpr hp)]
        subst hp
        rfl
      · rw [if_neg (mt (pointTests_iff p c tFine adcH).mp hp)]
        exact he _ _ _ (h.resolve_left hp)
  obtain ⟨e, he⟩ := key Set.univ Set.finite_univ
  exact ⟨e, fun _ _ _ => he _ _ _ trivial⟩

end Sys2Proof.Machine
end

