-- ==== Sys2Proof/Laws/Step.lean ====
section
/-!
SUPPORT. Everything one step can do (spec/20_memory.md R60): wait, run the command of the word it takes, or reject a
reserved word.
-/

namespace Sys2Proof.Machine

theorem takeWord_nil {s : State} (h : s.pending = []) : takeWord s = none := by
  simp [takeWord, h]

theorem takeWord_cons {s : State} {cw : Command} {rest : List Command} (h : s.pending = cw :: rest) :
    takeWord s = some (cw, setPending rest s) := by
  simp [takeWord, h]

/-- EVERYTHING A STEP CAN DO. -/
theorem step_cases (s : State) :
    (s.pending = [] ∧ step s = .next s)
      ∨ (∃ cw rest i, s.pending = cw :: rest ∧ decode cw = .ok i ∧ step s = exec i (setPending rest s))
      ∨ (∃ cw rest e, s.pending = cw :: rest ∧ decode cw = .error e
          ∧ step s = .next (rejectWord cw (setPending rest s))) := by
  cases hp : s.pending with
  | nil => exact .inl ⟨rfl, by simp [step, takeWord_nil hp]⟩
  | cons cw rest =>
    cases hd : decode cw with
    | ok i => exact .inr (.inl ⟨cw, rest, i, rfl, hd, by simp [step, takeWord_cons hp, hd]⟩)
    | error e => exact .inr (.inr ⟨cw, rest, e, rfl, hd, by simp [step, takeWord_cons hp, hd]⟩)

/-- The word placed by `withFetchWord` is the one the next step takes. -/
theorem takeWord_withFetchWord (s : State) (nbits w : Nat) :
    takeWord (s.withFetchWord nbits w) = some (BitVec.ofNat 16 (w % 2 ^ nbits), s) := by
  simp [State.withFetchWord, presentWord, takeWord, setPending]

end Sys2Proof.Machine
end

