-- ==== Sys2Proof/WellFormed.lean ====
section
/-!
DEFINITION. Well-formedness of a command: its operand names something the spec assigns. The widths of the operands are
in the types, so a term is ill-formed only by the operand check of spec/60_exceptions.md R179 step 3. An ill-formed
command still has an encoding and decodes (R84); the machine answers it with ILLEGAL_ADDR or ILLEGAL_REG.
-/

namespace Sys2Proof

/-- The operand check of R179 step 3: WRB names an assigned cell (R52), RD an assigned register number (R89). -/
def Instr.wellFormed : Instr → Bool
  | .calld => true
  | .acq => true
  | .tcomp => true
  | .hcomp => true
  | .cycle => true
  | .srst => true
  | .wrb addr _ => Machine.addrAssigned addr
  | .rd reg => (Machine.regOfNumber reg).isSome

end Sys2Proof
end

