-- ==== Sys2Proof/Tests/Slice0.lean ====
section
/-!
SUPPORT. Tests on the spec's own vectors (spec/95_test_vectors.md) and, for every statement with hypotheses, a witness that
meets all of them.
-/

namespace Sys2Proof.Tests

open Sys2Proof Sys2Proof.Machine

/-! ### Small states -/

/-- Cells that hold a list of bytes, from an address on. -/
def block : Nat → List Byte → Memory
  | _, [] => []
  | a, b :: bytes => (a, b) :: block (a + 1) bytes

/-- The calibration bytes of vectors V1.1 to V1.4. -/
def cal1Bytes : Vector Byte 25 :=
  #v[0x70, 0x6B, 0x43, 0x67, 0x18, 0xFC, 0x7D, 0x8E, 0x43, 0xD6, 0xD0, 0x0B, 0x27, 0x0B, 0x8C, 0x00, 0xF9, 0xFF, 0x8C,
     0x3C, 0xF8, 0xC6, 0x70, 0x17, 0x4B]

def cal2Bytes : Vector Byte 7 := #v[0x6F, 0x01, 0x00, 0x13, 0x03, 0x20, 0x1E]

/-- The raw bytes of vector V2.1. -/
def rawBytes : Vector Byte 8 := #v[0x7E, 0xED, 0x00, 0x11, 0x22, 0x33, 0x75, 0x30]

/-- A buffer with every assigned cell written, by its status cells, identity and raw bytes. -/
def buffer (status : List Byte) (id : Byte) (raw : Vector Byte 8) : Memory :=
  block 0x00 cal1Bytes.toList ++ block 0x20 cal2Bytes.toList ++ [(0x28, id)] ++ block 0x30 raw.toList ++ block 0x38 status

/-- The buffer of program P1. -/
def goodBuffer : Memory := buffer [0, 0, 0, 0] 0x60 rawBytes

/-- The constants of V1.1 to V1.4 as their registers hold them. -/
def calP1 : Calibration :=
  { digT1 := 27504, digT2 := 26435, digT3 := 0xFC18, digP1 := 36477, digP2 := 0xD643, digP3 := 3024, digP4 := 2855,
    digP5 := 140, digP6 := 0xFFF9, digP7 := 15500, digP8 := 0xC6F8, digP9 := 6000, digH1 := 75, digH2 := 367, digH3 := 0,
    digH4 := 307, digH5 := 50, digH6 := 30 }

/-- Reset, then a buffer. -/
def withBuffer (m : Memory) : State := { State.reset with ib := m }

/-- Calibrated as in P1, on a buffer. -/
def calibrated (m : Memory) : State := { withBuffer m with cal := calP1, calValid := true }

/-- Calibrated, with the raw reading of V2.1. -/
def acquired : State := { calibrated goodBuffer with adcT := 519888, adcH := 30000, rawValid := true }

/-- The state at the end of P1, before it is read back (spec/95_test_vectors.md section 3). -/
def afterP1 : State :=
  { acquired with tFine := 128422, tfValid := true, tOut := 2508, toutValid := true, hOut := 59305, houtValid := true,
                  curT := 2508, curH := 59305, curValid := true }

/-- A faulted engine: V5.15. -/
def faultedState : State := { State.reset with fault := 0x02000004, faulted := true }

/-- The state an instruction leads to. -/
def after (i : Instr) (s : State) : State :=
  match exec i s with
  | .next t => t
  | .fault _ => s
  | .refused _ => s

/-- The state the next step leads to when the host presents a word. -/
def afterWord (cw : Command) (s : State) : State :=
  match step (presentWord cw s) with
  | .next t => t
  | .fault _ => s
  | .refused _ => s

theorem exec_after (i : Instr) (s : State) : exec i s = .next (after i s) := by
  obtain ⟨t, h⟩ := runCommand_next i (bodyOf i) s
  rw [← exec_eq_runCommand] at h
  simp [after, h]

/-! ### Well-formedness: a term each check refuses, and its neighbours -/

theorem test_wellFormed_refuses_addresses :
    (Instr.wrb 0x19 0).wellFormed = false ∧ (Instr.wrb 0x1F 0).wellFormed = false ∧ (Instr.wrb 0x27 0).wellFormed = false
      ∧ (Instr.wrb 0x29 0).wellFormed = false ∧ (Instr.wrb 0x2F 0).wellFormed = false
      ∧ (Instr.wrb 0x3C 0).wellFormed = false ∧ (Instr.wrb 0x3F 0).wellFormed = false := by decide

theorem test_wellFormed_refuses_registers :
    (Instr.rd 0x03).wellFormed = false ∧ (Instr.rd 0x0B).wellFormed = false ∧ (Instr.rd 0x0F).wellFormed = false
      ∧ (Instr.rd 0x22).wellFormed = false ∧ (Instr.rd 0x3F).wellFormed = false := by decide

theorem test_wellFormed_accepts :
    (Instr.wrb 0x18 0).wellFormed = true ∧ (Instr.wrb 0x3B 0xFF).wellFormed = true ∧ (Instr.rd 0x00).wellFormed = true
      ∧ (Instr.rd 0x21).wellFormed = true ∧ Instr.srst.wellFormed = true := by decide

/-! ### Decoding: a word of each row, from the encoding column of spec/30_encoding.md R83 -/

theorem test_decode_calld : decode 0b0000000100000000 = .ok .calld := by decide
theorem test_decode_acq : decode 0b0000001000000000 = .ok .acq := by decide
theorem test_decode_tcomp : decode 0b0000001100000000 = .ok .tcomp := by decide
theorem test_decode_hcomp : decode 0b0000010000000000 = .ok .hcomp := by decide
theorem test_decode_cycle : decode 0b0000010100000000 = .ok .cycle := by decide
theorem test_decode_srst : decode 0b0000111100000000 = .ok .srst := by decide
/-- `01 111011 11111111` (V5.20). -/
theorem test_decode_wrb : decode 0b0111101111111111 = .ok (.wrb 0b111011 0b11111111) := by decide
/-- `1000 000000 100001`. -/
theorem test_decode_rd : decode 0b1000000000100001 = .ok (.rd 0b100001) := by decide

/-- The edges of the rows of R84, and the legal words next to them. -/
theorem test_decode_reserved :
    decode 0x0000 = .error .allZero ∧ decode 0x0600 = .error .unassignedFunct ∧ decode 0x0E00 = .error .unassignedFunct
      ∧ decode 0x0001 = .error .lowByteNotZero ∧ decode 0x0FFF = .error .lowByteNotZero
      ∧ decode 0x1000 = .error .opcodeOneToThree ∧ decode 0x3FFF = .error .opcodeOneToThree
      ∧ decode 0x8040 = .error .readHighBitsNotZero ∧ decode 0x8FFF = .error .readHighBitsNotZero
      ∧ decode 0x9000 = .error .opcodeNineToFifteen ∧ decode 0xFFFF = .error .opcodeNineToFifteen := by decide

theorem test_decode_neighbours :
    decode 0x4000 = .ok (.wrb 0 0) ∧ decode 0x7FFF = .ok (.wrb 0x3F 0xFF) ∧ decode 0x8000 = .ok (.rd 0)
      ∧ decode 0x803F = .ok (.rd 0x3F) := by decide

/-- The match column of spec/opcode_table.json, row by row. -/
theorem test_decodeTableWord :
    decodeTableWord 16 0x0100 = some .calld ∧ decodeTableWord 16 0x0200 = some .acq
      ∧ decodeTableWord 16 0x0300 = some .tcomp ∧ decodeTableWord 16 0x0400 = some .hcomp
      ∧ decodeTableWord 16 0x0500 = some .cycle ∧ decodeTableWord 16 0x0F00 = some .srst
      ∧ decodeTableWord 16 0x4000 = some (.wrb 0 0) ∧ decodeTableWord 16 0x8000 = some (.rd 0)
      ∧ decodeTableWord 16 0x0600 = none := by decide

/-- The word placed by `withFetchWord` is the one the first step after reset runs (V5.17). -/
theorem test_withFetchWord :
    step (State.reset.withFetchWord 16 0x8004) = .next { State.reset with history := [.out 0] } := by
  simp only [step, takeWord_withFetchWord]
  rfl

theorem test_assembler_refuses :
    assembleLine "WRB 64, 0" = none ∧ assembleLine "WRB CAL2[7], 0" = none ∧ assembleLine "WRB ID, 256" = none
      ∧ assembleLine "RD 0x40" = none ∧ assembleLine "HALT" = none := by decide

/-! ### CALLD -/

/-- V1.1 to V1.4: the constants of P1. -/
theorem test_calld_constants :
    (after .calld (withBuffer goodBuffer)).cal = calP1 ∧ (after .calld (withBuffer goodBuffer)).calValid = true := by
  decide +kernel

/-- V1.8 with H45_SIGNED = true: -1734 and -1883. -/
theorem test_calld_signed :
    (unpack true cal1Bytes #v[0, 0, 0, 0x93, 0x8A, 0x5C, 0xE2]).digH4.toInt = -1734
      ∧ (unpack true cal1Bytes #v[0, 0, 0, 0x93, 0x8A, 0x5C, 0xE2]).digH5.toInt = -1883 := by decide

/-! ### ACQ -/

/-- V2.9: the low nibble of RAW[2] and RAW[3..5] have no effect. -/
theorem test_acq_decodes :
    let t := after .acq (withBuffer (buffer [0, 0, 0, 0] 0x60 #v[0x65, 0x51, 0x8F, 0xFF, 0xFF, 0xFF, 0x4E, 0x20]))
    t.adcT = 415000 ∧ t.adcH = 20000 := by decide +kernel

/-- V2.6: the identity cell is not read when the bus status is bad. -/
theorem test_acq_fails_before_identity :
    after .acq (withBuffer [(0x3A, 1)]) = { withBuffer [(0x3A, 1)] with lastFail := true } := by decide +kernel

/-! ### TCOMP -/

/-- V3.3. -/
theorem test_tcomp_negative : tempComp 28000 26000 50 415000 = (BitVec.ofInt 32 (-1023), BitVec.ofInt 32 (-52366)) := by
  decide +kernel

/-- V3.4: the product and the square wrap. -/
theorem test_tcomp_wraps : tempComp 0 32767 32767 1048575 = (BitVec.ofInt 32 (-3), BitVec.ofInt 32 (-144)) := by
  decide +kernel

/-! ### HCOMP -/

/-- V4.2. -/
theorem test_hcomp : humComp .vendorChain calP1 128422 30000 = 59305 := by decide +kernel

/-- V4.3: clamped above. -/
theorem test_hcomp_clamps : humComp .vendorChain calP1 135479 40000 = 102400 := by decide +kernel

/-- The bounds of the clamp under a polynomial given as an expression. -/
theorem test_hcomp_given :
    humComp (.given (.sub .adcH (.const 1))) calP1 0 0 = 0
      ∧ humComp (.given (.mul (.cal .digH1) (.ifEq .tFine .adcH (.const 8192) .adcH))) calP1 3 3 = 150 := by
  decide +kernel

/-! ### CYCLE -/

/-- P1, the state after the cycle. -/
theorem test_cycle_success : after .cycle (calibrated goodBuffer) = afterP1 := by decide +kernel

/-- P2, word 2: the reading zeroed, STATUS 0x05F, one Diag, the old results kept. -/
theorem test_cycle_failure :
    let t := after .cycle { afterP1 with ib := buffer [0, 0, 0, 0] 0x61 rawBytes }
    statusWord t = 0x05F ∧ t.diagcnt = 1 ∧ t.history = [.diag] ∧ t.curT = 0 ∧ t.tFine = 128422 := by decide +kernel

/-! ### SRST, WRB, RD -/

/-- P3: SRST leaves the faulted state. -/
theorem test_srst_recovers :
    let t := afterWord 0x0F00 faultedState
    statusWord t = 0 ∧ t.fault = 0 ∧ t.ib = [] := by decide +kernel

/-- V5.19. -/
theorem test_wrb_writes : (afterWord 0x6860 State.reset).ib = [(0x28, 0x60)] := by decide +kernel

/-- V5.7. -/
theorem test_wrb_unassigned : afterWord 0x5900 State.reset = { State.reset with fault := 0x59000002, faulted := true } := by
  decide +kernel

/-- P5: RD T_OUT of a temperature below zero emits Out(0xFFFFFC01). -/
theorem test_rd_sign :
    (afterWord 0x8006 { afterP1 with tOut := BitVec.ofInt 32 (-1023) }).history = [.out 0xFFFFFC01] := by decide +kernel

/-- V5.9. -/
theorem test_rd_guard : afterWord 0x8008 State.reset = { State.reset with fault := 0x80080008, faulted := true } := by
  decide +kernel

/-- P3: a command the faulted engine does not take is dropped, and FAULT is kept. -/
theorem test_dropped : afterWord 0x0300 faultedState = faultedState := by decide +kernel

/-! ### The float view (spec/95_test_vectors.md section 2.6) -/

theorem test_float_negative : renderFloat Config.binary32 (-1023) 100 = 0xC123AE14 := by decide +kernel

theorem test_float_humidity : floatValue Config.binary32.toFloatLayout (renderFloat Config.binary32 59305 1024) = 57.9150390625 := by
  have h : renderFloat Config.binary32 59305 1024 = 0x4267A900 := by decide +kernel
  rw [h]
  norm_num [floatValue, floatSig, floatUlp, floatBias, Config.binary32]

/-- By hand: 43/32 is 5.375 quarters, so 1.25 at once; but 10.75 eighths, so 1.375 and then, a tie, 1.5. -/
theorem test_float_wider :
    let three : Config.FloatFmt := { precision := 3, expBits := 5, rounding := .nearestEven, wider := none }
    let four : Config.FloatLayout := { precision := 4, expBits := 5, rounding := .nearestEven }
    renderFloat three 43 32 = 0b0_01111_01 ∧ renderFloat { three with wider := some four } 43 32 = 0b0_01111_10
      ∧ renderFloat { Config.binary32 with wider := some Config.binary64 } 2508 100 = 0x41C8A3D7 := by decide +kernel

/-! ## Witnesses: for every statement with hypotheses, a state and operands that meet all of them; one for each clause -/

/-! ### The command port -/

theorem witness_EncodeOfDecode :
    decode 0x0100 = .ok .calld ∧ decode 0x7FFF = .ok (.wrb 0x3F 0xFF) ∧ decode 0x803F = .ok (.rd 0x3F) := by decide

theorem witness_StepRunsDecodedCommand :
    (presentWord 0x0200 State.reset).pending = [0x0200] ∧ decode 0x0200 = .ok .acq := by decide

theorem witness_StepWaitsWithoutWord : State.reset.pending = [] := rfl

theorem witness_ReservedWordRaisesIllegalCmd :
    (presentWord 0x0600 State.reset).faulted = false ∧ (presentWord 0x0600 State.reset).pending = [0x0600]
      ∧ decode 0x0600 = .error .unassignedFunct := by decide

/-! ### Faults -/

/-- A legal word (V5.15) and a reserved one (V5.3). -/
theorem witness_FaultsArePrecise :
    State.reset.faulted = false
      ∧ (∀ cw, (presentWord cw State.reset).faulted = false ∧ (presentWord cw State.reset).pending = [cw])
      ∧ (step (presentWord 0x0200 State.reset) = .next (afterWord 0x0200 State.reset)
          ∧ (afterWord 0x0200 State.reset).faulted = true)
      ∧ (step (presentWord 0x0600 State.reset) = .next (afterWord 0x0600 State.reset)
          ∧ (afterWord 0x0600 State.reset).faulted = true) :=
  ⟨rfl, fun _ => ⟨rfl, rfl⟩, ⟨rfl, rfl⟩, rfl, rfl⟩

/-- The four clauses: RD STATUS, RD FAULT, SRST; and for the last a legal, a reserved and a neighbouring word. -/
theorem witness_FaultedEngineTakesThreeCommands :
    faultedState.faulted = true
      ∧ (presentWord 0x8000 faultedState).pending = [0x8000] ∧ (presentWord 0x8001 faultedState).pending = [0x8001]
      ∧ (presentWord 0x0F00 faultedState).pending = [0x0F00]
      ∧ (∀ cw, (presentWord cw faultedState).pending = [cw])
      ∧ ((0x0300 : Command) ≠ 0x8000 ∧ (0x0300 : Command) ≠ 0x8001 ∧ (0x0300 : Command) ≠ 0x0F00)
      ∧ ((0x0E00 : Command) ≠ 0x8000 ∧ (0x0E00 : Command) ≠ 0x8001 ∧ (0x0E00 : Command) ≠ 0x0F00)
      ∧ ((0x8002 : Command) ≠ 0x8000 ∧ (0x8002 : Command) ≠ 0x8001 ∧ (0x8002 : Command) ≠ 0x0F00) :=
  ⟨rfl, rfl, rfl, rfl, fun _ => rfl, by decide, by decide, by decide⟩

theorem witness_OnlySrstLeavesFault :
    (presentWord 0x0F00 faultedState).faulted = true
      ∧ step (presentWord 0x0F00 faultedState) = .next (afterWord 0x0F00 faultedState)
      ∧ (afterWord 0x0F00 faultedState).faulted = false := ⟨rfl, rfl, rfl⟩

/-! ### Reset -/

theorem reset_isReset : IsReset State.reset := by
  constructor <;> first | rfl | decide | simp [State.reset]

/-- The three sorts of command that do not fault, and two that do. -/
theorem witness_FirstCommandsThatDoNotFault :
    IsReset State.reset
      ∧ (∀ i ∈ [Instr.srst, .wrb 0x00 0, .wrb 0x3B 0, .rd 0, .rd 1, .rd 2, .rd 4, .rd 5],
          exec i State.reset = .next (after i State.reset) ∧ (after i State.reset).faulted = false)
      ∧ ∀ i ∈ [Instr.wrb 0x19 0, .rd 3, .rd 6, .calld, .acq, .tcomp, .hcomp, .cycle],
          exec i State.reset = .next (after i State.reset) ∧ (after i State.reset).faulted = true :=
  ⟨reset_isReset, fun i hi => ⟨exec_after i _, by revert i; decide +kernel⟩,
    fun i hi => ⟨exec_after i _, by revert i; decide +kernel⟩⟩

/-! ### WRB and RD -/

/-- The ends of the four assigned ranges. -/
theorem witness_WrbStoresOneByte :
    State.reset.faulted = false ∧ ∀ a ∈ [0x00, 0x18, 0x20, 0x26, 0x28, 0x30, (0x3B : BitVec 6)],
      (a.toNat ≤ 0x18 ∨ (0x20 ≤ a.toNat ∧ a.toNat ≤ 0x26) ∨ a.toNat = 0x28 ∨ (0x30 ≤ a.toNat ∧ a.toNat ≤ 0x3B)) := by
  decide

/-- The ends of the four unassigned ranges. -/
theorem witness_WrbUnassignedFaults :
    State.reset.faulted = false ∧ ∀ a ∈ [0x19, 0x1F, 0x27, 0x29, 0x2F, 0x3C, (0x3F : BitVec 6)],
      ((0x19 ≤ a.toNat ∧ a.toNat ≤ 0x1F) ∨ a.toNat = 0x27 ∨ (0x29 ≤ a.toNat ∧ a.toNat ≤ 0x2F) ∨ 0x3C ≤ a.toNat) := by
  decide

/-- After P1 all 28 registers can be read; the ends of the table. -/
theorem witness_RdEmitsTheRegister :
    afterP1.faulted = false ∧ (0x00, true, statusWord afterP1) ∈ readTable afterP1
      ∧ (0x0A, true, 30000) ∈ readTable afterP1 ∧ (0x10, true, 27504) ∈ readTable afterP1
      ∧ (0x12, true, 0xFFFFFC18) ∈ readTable afterP1 ∧ (0x21, true, 30) ∈ readTable afterP1 := by decide +kernel

/-- The ends of the unassigned ranges, and guarded registers in the reset state. -/
theorem witness_RdWithoutValueFaults :
    State.reset.faulted = false
      ∧ (∀ n ∈ [0x03, 0x0B, 0x0F, 0x22, (0x3F : BitVec 6)],
          n.toNat = 0x03 ∨ (0x0B ≤ n.toNat ∧ n.toNat ≤ 0x0F) ∨ 0x22 ≤ n.toNat)
      ∧ (0x06, false, 0) ∈ readTable State.reset ∧ (0x21, false, 0) ∈ readTable State.reset := by decide +kernel

/-! ### CALLD -/

theorem goodBuffer_cal1 : cellsHold goodBuffer 0x00 cal1Bytes := by unfold cellsHold; decide

theorem goodBuffer_cal2 : cellsHold goodBuffer 0x20 cal2Bytes := by unfold cellsHold; decide

theorem goodBuffer_raw : cellsHold goodBuffer 0x30 rawBytes := by unfold cellsHold; decide

/-- P1's state with other parameters. -/
def withParams (p : Config.Params) (m : Memory) : State := { withBuffer m with params := p }

/-- The parameters with CAL_FAIL_POLICY = silent. -/
def silent : Config.Params := { Config.Params.default with calFailPolicy := .silent }

/-- Both policies, both readings of the packed constants. -/
theorem witness_CalldLoadsTheConstants :
    (withBuffer goodBuffer).faulted = false
      ∧ (memRead (withBuffer goodBuffer).ib 0x38 = some 0 ∧ memRead (withBuffer goodBuffer).ib 0x39 = some 0)
      ∧ (withParams silent goodBuffer).params.calFailPolicy = .silent
      ∧ (withBuffer goodBuffer).params.h45Signed = false
      ∧ (withParams { Config.Params.default with h45Signed := true } goodBuffer).params.h45Signed = true
      ∧ cellsHold goodBuffer 0x00 cal1Bytes ∧ cellsHold goodBuffer 0x20 cal2Bytes :=
  ⟨rfl, by decide, rfl, rfl, rfl, goodBuffer_cal1, goodBuffer_cal2⟩

/-- Either status cell (V1.10). -/
theorem witness_CalldReportsAFailedRead :
    ∀ m ∈ [buffer [1, 0, 0, 0] 0x60 rawBytes, buffer [0, 1, 0, 0] 0x60 rawBytes],
      (withBuffer m).faulted = false ∧ (withBuffer m).params.calFailPolicy = .error
        ∧ ∃ b1 b2 : Byte, memRead (withBuffer m).ib 0x38 = some b1 ∧ memRead (withBuffer m).ib 0x39 = some b2
            ∧ (b1 ≠ 0 ∨ b2 ≠ 0) := by
  intro m hm
  simp only [List.mem_cons, List.mem_nil_iff, or_false] at hm
  rcases hm with rfl | rfl
  · exact ⟨rfl, rfl, 1, 0, by decide⟩
  · exact ⟨rfl, rfl, 0, 1, by decide⟩

/-- A status cell unwritten under `error` (V1.11); a data cell of either block, under either policy. -/
theorem witness_CalldUnwrittenFaults :
    (withBuffer (block 0 cal1Bytes.toList)).faulted = false
      ∧ (State.reset.params.calFailPolicy = .error
          ∧ memRead (block 0 cal1Bytes.toList) 0x38 = none ∧ memRead (block 0x38 [0]) 0x39 = none)
      ∧ ((withParams silent (block 0 cal1Bytes.toList)).params.calFailPolicy = .silent
          ∧ someUnwritten (block 0 cal1Bytes.toList) 0x20 7)
      ∧ (memRead (block 0x38 [0, 0]) 0x38 = some 0 ∧ memRead (block 0x38 [0, 0]) 0x39 = some 0
          ∧ someUnwritten (block 0x38 [0, 0]) 0x00 25) :=
  ⟨rfl, by decide, ⟨rfl, 6, by decide, by decide⟩, by decide, by decide, 24, by decide, by decide⟩

theorem witness_PackedHumidityConstants :
    (withBuffer goodBuffer).faulted = false ∧ (withBuffer goodBuffer).params.h45Signed = false
      ∧ memRead (withBuffer goodBuffer).ib 0x38 = some 0 ∧ memRead (withBuffer goodBuffer).ib 0x39 = some 0
      ∧ cellsHold (withBuffer goodBuffer).ib 0x00 cal1Bytes ∧ cellsHold (withBuffer goodBuffer).ib 0x20 cal2Bytes :=
  ⟨rfl, rfl, by decide, by decide, goodBuffer_cal1, goodBuffer_cal2⟩

/-! ### ACQ and CYCLE -/

theorem witness_AcqDecodesTheRawBytes :
    (withBuffer goodBuffer).faulted = false ∧ memRead goodBuffer 0x3A = some 0 ∧ memRead goodBuffer 0x28 = some 0x60
      ∧ memRead goodBuffer 0x3B = some 0 ∧ cellsHold goodBuffer 0x30 rawBytes :=
  ⟨rfl, by decide, by decide, by decide, goodBuffer_raw⟩

/-- The buffers of the three failures: V2.6, V2.5, V2.7. -/
def badId : Memory := [(0x28, 0x61), (0x3A, 0)]

/-- The identity is right and the burst read failed (V2.7). -/
def badRaw : Memory := [(0x28, 0x60), (0x3A, 0), (0x3B, 2)]

theorem witness_AcqFailureSetsLastFailOnly :
    State.reset.faulted = false ∧ memRead [(0x3A, 1)] 0x3A = some (1 : Byte) ∧ (1 : Byte) ≠ 0
      ∧ (memRead badId 0x3A = some 0 ∧ memRead badId 0x28 = some 0x61 ∧ (0x61 : Byte) ≠ 0x60)
      ∧ (memRead badRaw 0x3A = some 0 ∧ memRead badRaw 0x28 = some 0x60 ∧ memRead badRaw 0x3B = some 2
          ∧ (2 : Byte) ≠ 0) := by decide

/-- The four cells control can reach first; the last is V2.8. -/
theorem witness_AcqUnwrittenFaults :
    State.reset.faulted = false ∧ memRead [] 0x3A = none
      ∧ (memRead [(0x3A, 0)] 0x3A = some 0 ∧ memRead [(0x3A, 0)] 0x28 = none)
      ∧ (memRead [(0x28, 0x60), (0x3A, 0)] 0x3A = some 0 ∧ memRead [(0x28, 0x60), (0x3A, 0)] 0x28 = some 0x60
          ∧ memRead [(0x28, 0x60), (0x3A, 0)] 0x3B = none)
      ∧ (memRead [(0x28, 0x60), (0x3A, 0), (0x3B, 0)] 0x3A = some 0
          ∧ memRead [(0x28, 0x60), (0x3A, 0), (0x3B, 0)] 0x28 = some 0x60
          ∧ memRead [(0x28, 0x60), (0x3A, 0), (0x3B, 0)] 0x3B = some 0
          ∧ someUnwritten [(0x28, 0x60), (0x3A, 0), (0x3B, 0)] 0x30 8) :=
  ⟨rfl, rfl, by decide, by decide, by decide, by decide, by decide, 5, by decide, by decide⟩

theorem witness_CycleMakesAReading :
    (calibrated goodBuffer).faulted = false ∧ (calibrated goodBuffer).calValid = true ∧ memRead goodBuffer 0x3A = some 0
      ∧ memRead goodBuffer 0x28 = some 0x60 ∧ memRead goodBuffer 0x3B = some 0 ∧ cellsHold goodBuffer 0x30 rawBytes :=
  ⟨rfl, rfl, by decide, by decide, by decide, goodBuffer_raw⟩

/-- The failures of ACQ's witness, on a calibrated engine. -/
theorem witness_CycleFailureZeroesTheReading :
    (calibrated badId).faulted = false ∧ (calibrated badId).calValid = true
      ∧ memRead (calibrated [(0x3A, 1)]).ib 0x3A = some (1 : Byte) ∧ (1 : Byte) ≠ 0
      ∧ (memRead (calibrated badId).ib 0x3A = some 0 ∧ memRead (calibrated badId).ib 0x28 = some 0x61
          ∧ (0x61 : Byte) ≠ 0x60)
      ∧ (memRead (calibrated badRaw).ib 0x3A = some 0 ∧ memRead (calibrated badRaw).ib 0x28 = some 0x60
          ∧ memRead (calibrated badRaw).ib 0x3B = some 2 ∧ (2 : Byte) ≠ 0) := by decide

/-- The identity passes and both statuses are 0, with RAW unwritten. -/
def noRaw : State := calibrated [(0x28, 0x60), (0x3A, 0), (0x3B, 0)]

/-- Not calibrated; and calibrated, with each of the four cells of ACQ's witness unwritten. -/
theorem witness_CycleFaults :
    State.reset.faulted = false ∧ State.reset.calValid = false ∧ noRaw.faulted = false ∧ noRaw.calValid = true
      ∧ memRead (calibrated []).ib 0x3A = none
      ∧ (memRead (calibrated [(0x3A, 0)]).ib 0x3A = some 0 ∧ memRead (calibrated [(0x3A, 0)]).ib 0x28 = none)
      ∧ (memRead (calibrated [(0x28, 0x60), (0x3A, 0)]).ib 0x28 = some 0x60
          ∧ memRead (calibrated [(0x28, 0x60), (0x3A, 0)]).ib 0x3A = some 0
          ∧ memRead (calibrated [(0x28, 0x60), (0x3A, 0)]).ib 0x3B = none)
      ∧ (memRead noRaw.ib 0x3A = some 0 ∧ memRead noRaw.ib 0x28 = some 0x60 ∧ memRead noRaw.ib 0x3B = some 0
          ∧ someUnwritten noRaw.ib 0x30 8) :=
  ⟨rfl, rfl, rfl, rfl, rfl, by decide, by decide, by decide, by decide, by decide, 0, by decide, by decide⟩

theorem witness_CycleIsAcqTcompHcomp :
    (calibrated goodBuffer).faulted = false ∧ exec .cycle (calibrated goodBuffer) = .next (after .cycle (calibrated goodBuffer))
      ∧ (after .cycle (calibrated goodBuffer)).faulted = false
      ∧ (after .cycle (calibrated goodBuffer)).lastFail = false :=
  ⟨rfl, exec_after _ _, by decide +kernel, by decide +kernel⟩

/-! ### TCOMP and HCOMP -/

theorem witness_TcompComputesTheTemperature :
    acquired.faulted = false ∧ acquired.calValid = true ∧ acquired.rawValid = true := by decide

theorem witness_TcompOutOfOrderFaults :
    State.reset.faulted = false ∧ State.reset.calValid = false ∧ (calibrated []).faulted = false
      ∧ (calibrated []).calValid = true ∧ (calibrated []).rawValid = false := by decide

theorem witness_TemperatureStaysInRange :
    acquired.faulted = false ∧ acquired.calValid = true ∧ acquired.rawValid = true
      ∧ exec .tcomp acquired = .next (after .tcomp acquired) := ⟨rfl, rfl, rfl, exec_after _ _⟩

theorem witness_TemperatureRoundsToNearest :
    acquired.faulted = false ∧ acquired.calValid = true ∧ acquired.rawValid = true
      ∧ exec .tcomp acquired = .next (after .tcomp acquired) := ⟨rfl, rfl, rfl, exec_after _ _⟩

/-- The state at the end of P1 under another polynomial. -/
def withHpoly (p : Config.HPoly) : State := { afterP1 with params := { Config.Params.default with hpoly := p } }

/-- With each form of the polynomial. -/
theorem witness_HcompComputesTheHumidity :
    afterP1.faulted = false ∧ afterP1.calValid = true ∧ afterP1.rawValid = true ∧ afterP1.tfValid = true
      ∧ afterP1.params.hpoly = .vendorChain
      ∧ { afterP1 with params := { Config.Params.default with hpoly := .uninterpreted } }.params.hpoly = .uninterpreted
      ∧ (withHpoly (.given .adcH)).params.hpoly = .given .adcH := by
  decide

/-- The function that gives `adc_H` back, and a state under it. -/
theorem witness_HpolyMayBeAnyFunction :
    (withHpoly (.given .adcH)).params.hpoly = .given .adcH ∧ (∀ c t h, polyValue c t h .adcH = h)
      ∧ (withHpoly (.given .adcH)).faulted = false ∧ (withHpoly (.given .adcH)).calValid = true
      ∧ (withHpoly (.given .adcH)).rawValid = true ∧ (withHpoly (.given .adcH)).tfValid = true :=
  ⟨rfl, fun _ _ _ => rfl, rfl, rfl, rfl, rfl⟩

theorem witness_HcompOutOfOrderFaults :
    State.reset.faulted = false ∧ State.reset.calValid = false ∧ (calibrated []).calValid = true
      ∧ (calibrated []).rawValid = false ∧ acquired.faulted = false ∧ acquired.calValid = true
      ∧ acquired.rawValid = true ∧ acquired.tfValid = false := by decide

/-- Below the clamp, on its lower end, inside and above it: adc_H 20060, 20061, 37772 and 37773 of V4.6 to V4.9. -/
theorem witness_HumidityIsClamped :
    let c := { calP1 with digH4 := 311 }
    (hpoly .vendorChain c 128422 20060).toInt = -48060 ∧ (hpoly .vendorChain c 128422 20061).toInt = 0
      ∧ (hpoly .vendorChain c 128422 37772).toInt = 419394708
      ∧ (hpoly .vendorChain c 128422 37773).toInt = 419441817 := by decide +kernel

theorem witness_SignOfH4DoesNotMatter : 0 < 4096 ∧ 2362 < 4096 ∧ 4095 < 4096 := by decide

/-! ### Order of commands and who writes what -/

theorem witness_HumidityNeedsANewTemperature :
    afterP1.faulted = false ∧ afterP1.calValid = true ∧ exec .acq afterP1 = .next (after .acq afterP1)
      ∧ (after .acq afterP1).faulted = false ∧ (after .acq afterP1).lastFail = false :=
  ⟨rfl, rfl, exec_after _ _, by decide +kernel, by decide +kernel⟩

theorem witness_RepeatingACommandChangesNothing :
    (exec .calld (withBuffer goodBuffer) = .next (after .calld (withBuffer goodBuffer))
        ∧ (after .calld (withBuffer goodBuffer)).faulted = false ∧ (after .calld (withBuffer goodBuffer)).calValid = true)
      ∧ (exec .tcomp acquired = .next (after .tcomp acquired) ∧ (after .tcomp acquired).faulted = false)
      ∧ (exec .hcomp afterP1 = .next (after .hcomp afterP1) ∧ (after .hcomp afterP1).faulted = false) :=
  ⟨⟨exec_after _ _, by decide +kernel, by decide +kernel⟩, ⟨exec_after _ _, by decide +kernel⟩,
    exec_after _ _, by decide +kernel⟩

theorem witness_OnlyCalldAndSrstWriteCalibration :
    exec .cycle (calibrated goodBuffer) = .next (after .cycle (calibrated goodBuffer)) ∧ Instr.cycle ≠ .calld
      ∧ Instr.cycle ≠ .srst := ⟨exec_after _ _, by decide, by decide⟩

theorem witness_OnlyCycleAndSrstWriteTheReading :
    exec .hcomp afterP1 = .next (after .hcomp afterP1) ∧ Instr.hcomp ≠ .cycle ∧ Instr.hcomp ≠ .srst :=
  ⟨exec_after _ _, by decide, by decide⟩

theorem witness_OnlyWrbAndSrstWriteTheBuffer :
    exec .calld (withBuffer goodBuffer) = .next (after .calld (withBuffer goodBuffer)) ∧ Instr.calld ≠ .srst
      ∧ ∀ a d, Instr.calld ≠ .wrb a d := ⟨exec_after _ _, by decide, fun _ _ h => by cases h⟩

/-- A CYCLE that fails; one that succeeds, one that faults; RD, and a command that emits nothing. -/
theorem witness_DiagOnceForEachFailedCycle :
    (exec .cycle (calibrated badId) = .next (after .cycle (calibrated badId)) ∧ (calibrated badId).faulted = false
        ∧ (after .cycle (calibrated badId)).faulted = false ∧ (after .cycle (calibrated badId)).lastFail = true)
      ∧ (exec .cycle (calibrated goodBuffer) = .next (after .cycle (calibrated goodBuffer))
          ∧ (after .cycle (calibrated goodBuffer)).lastFail = false)
      ∧ (exec .cycle State.reset = .next (after .cycle State.reset) ∧ (after .cycle State.reset).faulted = true)
      ∧ (exec (.rd 0) acquired = .next (after (.rd 0) acquired) ∧ Instr.rd 0 ≠ .cycle)
      ∧ (exec .tcomp acquired = .next (after .tcomp acquired) ∧ Instr.tcomp ≠ .cycle) :=
  ⟨⟨exec_after _ _, rfl, by decide +kernel, by decide +kernel⟩, ⟨exec_after _ _, by decide +kernel⟩,
    ⟨exec_after _ _, by decide +kernel⟩, ⟨exec_after _ _, by decide⟩, exec_after _ _, by decide⟩

/-- A host whose text is two bytes, on a buffer. -/
def withText (m : Memory) : State :=
  { calibrated m with params := { Config.Params.default with diagText := some [0x48, 0x0A] } }

/-- The three failures; a CYCLE that succeeds and one that faults; another command. -/
theorem witness_DiagTextOnceForEachFailedCycle :
    (∀ m, (withText m).params.diagText = some [0x48, 0x0A] ∧ (withText m).faulted = false ∧ (withText m).calValid = true
        ∧ ∀ i, exec i (withText m) = .next (after i (withText m)))
      ∧ (memRead (withText [(0x3A, 1)]).ib 0x3A = some (1 : Byte) ∧ (1 : Byte) ≠ 0)
      ∧ (memRead (withText badId).ib 0x3A = some 0 ∧ memRead (withText badId).ib 0x28 = some 0x61 ∧ (0x61 : Byte) ≠ 0x60)
      ∧ (memRead (withText badRaw).ib 0x3A = some 0 ∧ memRead (withText badRaw).ib 0x28 = some 0x60
          ∧ memRead (withText badRaw).ib 0x3B = some 2 ∧ (2 : Byte) ≠ 0)
      ∧ (after .cycle (withText goodBuffer)).lastFail = false ∧ (after .cycle (withText [])).faulted = true
      ∧ Instr.acq ≠ .cycle :=
  ⟨fun _ => ⟨rfl, rfl, rfl, fun _ => exec_after _ _⟩, by decide, by decide, by decide, by decide +kernel,
    by decide +kernel, by decide⟩

/-- The text is written once. -/
theorem test_diag_text : diagTexts (after .cycle (withText badId)) = [[0x48, 0x0A]] := by decide +kernel

theorem witness_ParametersNeverChange :
    step (presentWord 0x0F00 faultedState) = .next (afterWord 0x0F00 faultedState) := rfl

/-! ### Invariants -/

/-- The next step of these witnesses: the calibrated engine of P1 takes CYCLE. -/
def beforeCycle : State := presentWord 0x0500 (calibrated goodBuffer)

theorem beforeCycle_step : step beforeCycle = .next (afterWord 0x0500 (calibrated goodBuffer)) := by
  have hd : decode 0x0500 = .ok .cycle := by decide
  have hp : beforeCycle.pending = [0x0500] := rfl
  simp only [afterWord, beforeCycle, step, presentWord, takeWord_cons (show (setPending _ _).pending = _ from rfl), hd,
    exec_after]

theorem goodBuffer_assigned : goodBuffer.all (fun c => decide (c.1 < 64) && addrAssigned (BitVec.ofNat 6 c.1)) = true := by
  decide +kernel

theorem memRead_mem {m : Memory} {a : Nat} {b : Byte} (h : memRead m a = some b) : (a, b) ∈ m := by
  induction m with
  | nil => cases h
  | cons c rest ih =>
    obtain ⟨d, u⟩ := c
    simp only [memRead] at h
    split at h
    · next hd => simp [hd, Option.some.inj h]
    · exact List.mem_cons_of_mem _ (ih h)

theorem witness_StepKeepsMemoryInv :
    MemoryInv beforeCycle ∧ step beforeCycle = .next (afterWord 0x0500 (calibrated goodBuffer)) := by
  refine ⟨⟨by decide +kernel, fun a b h => ?_⟩, beforeCycle_step⟩
  have hall := List.all_eq_true.mp goodBuffer_assigned _ (memRead_mem (m := goodBuffer) h)
  simp only [Bool.and_eq_true, decide_eq_true_eq] at hall
  refine ⟨BitVec.ofNat 6 a, ?_, hall.2⟩
  rw [BitVec.toNat_ofNat]
  omega

/-- An engine before a fault, and one in it that takes SRST. -/
theorem witness_StepKeepsFaultInv :
    (FaultInv beforeCycle ∧ step beforeCycle = .next (afterWord 0x0500 (calibrated goodBuffer)))
      ∧ (FaultInv (presentWord 0x0F00 faultedState)
          ∧ step (presentWord 0x0F00 faultedState) = .next (afterWord 0x0F00 faultedState)) := by
  refine ⟨⟨⟨rfl, fun _ => rfl, fun h => (by cases h)⟩, beforeCycle_step⟩, ⟨rfl, fun h => (by cases h), fun _ => ?_⟩, rfl⟩
  exact ⟨.uninitInput, 0x0200, by decide⟩

/-- The state at the end of P1, where every clause of the invariant speaks, takes RD CUR_T. -/
theorem witness_StepKeepsReadingInv :
    ReadingInv (presentWord 0x8004 afterP1)
      ∧ step (presentWord 0x8004 afterP1) = .next { afterP1 with history := [.out 2508] } := by
  refine ⟨?_, rfl⟩
  constructor <;> decide +kernel

/-- Two states that differ in ADC_T under RAW_VALID = 0, and take RD STATUS. -/
theorem witness_UnguardedContentIsUnobservable :
    SameObservable (presentWord 0x8000 State.reset) (presentWord 0x8000 { State.reset with adcT := 7 })
      ∧ step (presentWord 0x8000 State.reset) = .next { State.reset with history := [.out 0] }
      ∧ step (presentWord 0x8000 { State.reset with adcT := 7 })
          = .next { State.reset with adcT := 7, history := [.out 0] } := by
  refine ⟨?_, rfl, rfl⟩
  constructor <;> first | rfl | (intro h; cases h)

/-- The smallest format with 17 significand bits and 4 exponent bits, alone and through binary64; the ends of the range. -/
theorem witness_HumidityFloatIsExact :
    let small : Config.FloatFmt := { precision := 17, expBits := 4, rounding := .towardZero, wider := none }
    let through : Config.FloatFmt := { small with wider := some Config.binary64 }
    (17 ≤ small.precision ∧ 4 ≤ small.expBits ∧ ∀ wide, small.wider = some wide → 17 ≤ wide.precision ∧ 4 ≤ wide.expBits)
      ∧ (17 ≤ through.precision ∧ 4 ≤ through.expBits
          ∧ ∀ wide, through.wider = some wide → 17 ≤ wide.precision ∧ 4 ≤ wide.expBits)
      ∧ 0 ≤ 102400 ∧ 102400 ≤ 102400 := by
  refine ⟨⟨by decide, by decide, fun _ h => (by cases h)⟩, ⟨by decide, by decide, fun wide h => ?_⟩, by decide, by decide⟩
  obtain rfl := Option.some.inj h
  decide

end Sys2Proof.Tests
end

section
/-!
PROOFS. What HPOLY and HCOMP compute (spec/00_scope.md R8, spec/43_humidity.md R130 to R134).
-/

namespace Sys2Proof.Machine

/-! ### HCOMP on 32-bit vectors -/

/-- Clamp and shift by cases on the signed value: no result of the clamp leaves i32, so `wrap32` changes nothing
(R133, R134). -/
theorem clampShift_eq (v : Word) :
    clampShift v = (if v.toInt < 0 then 0 else if 419430400 < v.toInt then 419430400 else v).sshiftRight 12 := by
  rw [clampShift, sar32_eq, clampInt, hClampMin, hClampMax]
  congr 1
  split
  · rfl
  · split
    · rfl
    · exact wrap32_toInt v

/-- The success path of HCOMP (R130). -/
theorem exec_hcomp_next {s : State} (hf : s.faulted = false) (hc : s.calValid = true) (hr : s.rawValid = true)
    (ht : s.tfValid = true) :
    exec .hcomp s = .next (storeHumidity (clampShift (hpoly s.params.hpoly s.cal s.tFine s.adcH)) s) := by
  have hbody : hcompBody s = .ok (storeHumidity (humComp s.params.hpoly s.cal s.tFine s.adcH) s) := by
    simpa [hc, hr, ht] using hcompBody_cases s
  exact exec_ok (i := .hcomp) hf hbody

/-! ### The obligations -/

/-- Settles O32: the expression `polyValue_surjective` builds for the function is the value of HPOLY. -/
theorem hpolyMayBeAnyFunction : Obligations.HpolyMayBeAnyFunction := by
  intro f
  obtain ⟨e, he⟩ := polyValue_surjective f
  refine ⟨.given e, fun s hp hf hc hr ht => ?_⟩
  have hv : hpoly s.params.hpoly s.cal s.tFine s.adcH = f s.cal s.tFine s.adcH := by rw [hp, hpoly, he]
  rw [exec_hcomp_next hf hc hr ht, hv, clampShift_eq]
  rfl

/-- Settles O31: the i32 primitives of the default polynomial are the vector operations, and the other two forms of HPOLY
are their own value. -/
theorem hcompComputesTheHumidity : Obligations.HcompComputesTheHumidity := by
  intro s hf hc hr ht h1 h2 h3 h4 h5 h6 x w chain v
  have hchain : hpolyVendor s.cal s.tFine s.adcH = chain := by
    simp only [hpolyVendor, add32_eq, sub32_eq, mul32_eq, shl32_eq, sar32_eq]
    rfl
  have hv : hpoly s.params.hpoly s.cal s.tFine s.adcH = v := by
    cases hp : s.params.hpoly with
    | vendorChain => simp only [v, hp, hpoly, hchain]
    | uninterpreted => simp only [v, hp, hpoly]
    | given e => simp only [v, hp, hpoly]
  rw [exec_hcomp_next hf hc hr ht, hv, clampShift_eq]
  rfl

end Sys2Proof.Machine
end

section
/-!
PROOFS. What every command leaves of the state (spec/10_state.md R25 to R43): the outcomes of a command as one relation, the
invariants every step keeps, the frames of the write matrix, and that the content behind a cleared guard shows nowhere.
-/

namespace Sys2Proof.Machine

/-! ### Everything a command and a step can leave -/

/-- A command that runs whole takes the first state to the second: one constructor for each success path of Laws/Commands,
tied to the model by `bodyRun_of_ok`. -/
inductive BodyRun : Instr → State → State → Prop where
  | calldFailed (s : State) : BodyRun .calld s (loseCalibration (endSession s))
  | calldLoaded (s : State) (c1 : Vector Byte 25) (c2 : Vector Byte 7) :
      BodyRun .calld s (loadCalibration (unpack s.params.h45Signed c1 c2) (endSession s))
  | acqFailed (s : State) : BodyRun .acq s (setLastFail true s)
  | acqRead (s : State) (raw : Vector Byte 8) :
      BodyRun .acq s (setLastFail false (clearResults
        (storeRaw (BitVec.ofNat 32 (decodeT raw)) (BitVec.ofNat 32 (decodeH raw)) s)))
  | tcomp (s : State) : s.calValid = true → s.rawValid = true →
      BodyRun .tcomp s (storeTemperature (tempCompCal s.cal s.adcT).1 (tempCompCal s.cal s.adcT).2 s)
  | hcomp (s : State) : s.calValid = true → s.rawValid = true → s.tfValid = true →
      BodyRun .hcomp s (storeHumidity (humComp s.params.hpoly s.cal s.tFine s.adcH) s)
  | cycleFailed (s : State) : s.calValid = true → BodyRun .cycle s (setPhase false (cycleFailed (setPhase true s)))
  | cycleRead (s : State) (raw : Vector Byte 8) : s.calValid = true →
      BodyRun .cycle s (setPhase false
        (cycleSucceeded (BitVec.ofNat 32 (decodeT raw)) (BitVec.ofNat 32 (decodeH raw)) (setPhase true s)))
  | srst (s : State) : BodyRun .srst s (resetEngine s)
  | wrb (addr : BitVec 6) (data : Byte) (s : State) : addrAssigned addr = true →
      BodyRun (.wrb addr data) s (setIb (memWrite s.ib addr.toNat data) s)
  | rd (reg : BitVec 6) (r : Reg) (s : State) : regOfNumber reg = some r → readable s r = true →
      BodyRun (.rd reg) s (emit (.out (regValue s r)) s)

/-- Every body that answers a state is one of the runs. -/
theorem bodyRun_of_ok {i : Instr} {s t : State} (h : bodyOf i s = .ok t) : BodyRun i s t := by
  cases i <;> simp only [bodyOf] at h
  case calld =>
    rcases calldBody_cases s with e | e | ⟨c1, c2, e⟩ <;> rw [e] at h <;> cases h
    exacts [.calldFailed s, .calldLoaded s c1 c2]
  case acq =>
    rcases acqBody_cases s with e | e | ⟨raw, e⟩ <;> rw [e] at h <;> cases h
    exacts [.acqFailed s, .acqRead s raw]
  case tcomp =>
    rcases tcompBody_cases s with ⟨-, e⟩ | ⟨-, -, e⟩ | ⟨hc, hr, e⟩ <;> rw [e] at h <;> cases h
    exact .tcomp s hc hr
  case hcomp =>
    rcases hcompBody_cases s with ⟨-, e⟩ | ⟨-, -, e⟩ | ⟨-, -, -, e⟩ | ⟨hc, hr, ht, e⟩ <;> rw [e] at h <;> cases h
    exact .hcomp s hc hr ht
  case cycle =>
    rcases cycleBody_cases s with ⟨-, e⟩ | ⟨-, e⟩ | ⟨hc, e⟩ | ⟨hc, raw, e⟩ <;> rw [e] at h <;> cases h
    exacts [.cycleFailed s hc, .cycleRead s raw hc]
  case srst =>
    cases h
    exact .srst s
  case wrb addr data =>
    rcases wrbBody_cases addr data s with ⟨-, e⟩ | ⟨ha, e⟩ <;> rw [e] at h <;> cases h
    exact .wrb addr data s ha
  case rd reg =>
    rcases rdBody_cases reg s with ⟨-, e⟩ | ⟨_, -, -, e⟩ | ⟨r, hreg, hr, e⟩ <;> rw [e] at h <;> cases h
    exact .rd reg r s hreg hr

/-- A faulted engine may leave the state as it is; an unfaulted one may record the fault of the body; else the body has run
whole (R176, R177). -/
theorem exec_next_cases {i : Instr} {s t : State} (h : exec i s = .next t) :
    (s.faulted = true ∧ t = s)
      ∨ (s.faulted = false ∧ ∃ c, bodyOf i s = .error c ∧ t = recordFault c (encode i) s)
      ∨ BodyRun i s t := by
  rw [exec_eq_runCommand] at h
  rcases runCommand_cases i (bodyOf i) s with ⟨hdrop, e⟩ | ⟨-, u, hb, e⟩ | ⟨-, c, hb, e⟩ <;> rw [e] at h <;> cases h
  · exact .inl ⟨by simpa using fun hf => hdrop (.inl hf), rfl⟩
  · exact .inr (.inr (bodyRun_of_ok hb))
  · cases hf : s.faulted with
    | true => exact .inl ⟨rfl, enterFault_of_faulted hf _ _⟩
    | false => exact .inr (.inl ⟨rfl, c, hb, enterFault_of_not_faulted hf _ _⟩)

/-- What taking a word, recording a fault and every whole run keep, every step keeps. -/
theorem step_keeps {P : State → Prop} (hport : ∀ ws s, P s → P (setPending ws s))
    (hfault : ∀ c cw s, P s → P (recordFault c cw s)) (hrun : ∀ i s t, BodyRun i s t → P s → P t)
    {s t : State} (hs : P s) (h : step s = .next t) : P t := by
  rcases step_cases s with ⟨-, e⟩ | ⟨cw, rest, i, -, -, e⟩ | ⟨cw, rest, -, -, -, e⟩ <;> rw [e] at h
  · cases h
    exact hs
  · rcases exec_next_cases h with ⟨-, rfl⟩ | ⟨-, c, -, rfl⟩ | hr
    exacts [hport _ _ hs, hfault _ _ _ (hport _ _ hs), hrun _ _ _ hr (hport _ _ hs)]
  · cases h
    unfold rejectWord enterFault
    split
    exacts [hport _ _ hs, hfault _ _ _ (hport _ _ hs)]

/-! ### PHASE and FAULT -/

/-- A whole run ends in Idle if it began there (R140). -/
theorem BodyRun.phase {i : Instr} {s t : State} (h : BodyRun i s t) (hs : s.phase = false) : t.phase = false := by
  cases h <;> simp [hs]

/-- A whole run leaves FAULT and FAULTED, or clears both (R176, R178). -/
theorem BodyRun.fault {i : Instr} {s t : State} (h : BodyRun i s t) :
    (t.faulted = s.faulted ∧ t.fault = s.fault) ∨ (t.faulted = false ∧ t.fault = 0) := by
  cases h <;> simp [Machine.cycleFailed, cycleSucceeded]

theorem faultInv_setPending (ws : List Command) {s : State} (h : FaultInv s) : FaultInv (setPending ws s) := { h with }

theorem faultInv_recordFault (c : FaultCause) (cw : Command) {s : State} (h : FaultInv s) :
    FaultInv (recordFault c cw s) where
  idle := h.idle
  clear := by simp
  recorded _ := ⟨c, cw, rfl⟩

theorem faultInv_bodyRun {i : Instr} {s t : State} (hr : BodyRun i s t) (h : FaultInv s) : FaultInv t := by
  have hidle := hr.phase h.idle
  rcases hr.fault with ⟨hf, hw⟩ | ⟨hf, hw⟩
  · exact ⟨hidle, fun ht => hw.trans (h.clear (hf.symm.trans ht)), fun ht => hw ▸ h.recorded (hf.symm.trans ht)⟩
  · exact ⟨hidle, fun _ => hw, fun ht => by simp [hf] at ht⟩

/-- Settles O50: the port leaves the three fields, a recorded fault has the form of R33, and a whole run leaves FAULT or
clears it. -/
theorem stepKeepsFaultInv : Obligations.StepKeepsFaultInv := fun _ _ hs h =>
  step_keeps (fun ws _ => faultInv_setPending ws) (fun c cw _ => faultInv_recordFault c cw)
    (fun _ _ _ => faultInv_bodyRun) hs h

/-! ### The constants and results behind the validity flags -/

/-- Under H45_SIGNED 0 the packed constants stay below 4096 (R103). -/
theorem unpack_packedUnsigned (c1 : Vector Byte 25) (c2 : Vector Byte 7) :
    (unpack false c1 c2).digH4.toNat < 4096 ∧ (unpack false c1 c2).digH5.toNat < 4096 := by
  simp only [unpack, toNat_store12_false (packH4_lt _ _), toNat_store12_false (packH5_lt _ _)]
  exact ⟨packH4_lt _ _, packH5_lt _ _⟩

theorem store12_true_bounds {n : Nat} (hn : n < 4096) :
    -2048 ≤ (store12 true n).toInt ∧ (store12 true n).toInt ≤ 2047 := by
  rw [toInt_store12_true hn]
  split <;> omega

/-- Under H45_SIGNED 1 the packed constants are signed 12-bit numbers (R103). -/
theorem unpack_packedSigned (c1 : Vector Byte 25) (c2 : Vector Byte 7) :
    (-2048 ≤ (unpack true c1 c2).digH4.toInt ∧ (unpack true c1 c2).digH4.toInt ≤ 2047)
      ∧ (-2048 ≤ (unpack true c1 c2).digH5.toInt ∧ (unpack true c1 c2).digH5.toInt ≤ 2047) :=
  ⟨store12_true_bounds (packH4_lt _ _), store12_true_bounds (packH5_lt _ _)⟩

/-- Both ways of storing keep the low 12 bits (R103, R104). -/
theorem store12_toNat_mod (b : Bool) {n : Nat} (hn : n < 4096) : (store12 b n).toNat % 4096 = n := by
  cases b with
  | false =>
    rw [toNat_store12_false hn]
    omega
  | true =>
    have h := toInt_store12_true hn
    rw [BitVec.toInt_eq_toNat_cond] at h
    omega

/-- Bits 3:0 of `dig_H4` and bits 7:4 of `dig_H5` are one nibble, the low one of the byte the two share (R103). -/
theorem unpack_sharedNibble (b : Bool) (c1 : Vector Byte 25) (c2 : Vector Byte 7) :
    (unpack b c1 c2).digH4.extractLsb' 0 4 = (unpack b c1 c2).digH5.extractLsb' 4 4 := by
  have h4 := store12_toNat_mod b (packH4_lt c2[3] c2[4])
  have h5 := store12_toNat_mod b (packH5_lt c2[4] c2[5])
  have hb := c2[5].isLt
  rw [packH4_eq] at h4
  rw [packH5_eq] at h5
  apply BitVec.eq_of_toNat_eq
  simp only [unpack, BitVec.extractLsb'_toNat, Nat.shiftRight_eq_div_pow, packH4_eq, packH5_eq]
  omega

/-- The humidity is at most 102400, the clamp's upper end shifted by 12 (R133, R134). -/
theorem humComp_le (p : Config.HPoly) (c : Calibration) (tFine adcH : Word) :
    (humComp p c tFine adcH).toNat ≤ 102400 := by
  obtain ⟨hlo, hhi⟩ := clampInt_bounds (hpoly p c tFine adcH).toInt (show hClampMin ≤ hClampMax by decide)
  rw [hClampMin, hClampMax] at hlo hhi
  have hint : (humComp p c tFine adcH).toInt = clampInt (hpoly p c tFine adcH).toInt 0 419430400 / 2 ^ 12 := by
    rw [humComp, clampShift, toInt_sar32, hClampMin, hClampMax, toInt_wrap32 (by omega) (by omega)]
  rw [BitVec.toInt_eq_toNat_cond] at hint
  omega

/-! ### The validity flags -/

theorem readingInv_setPending (ws : List Command) {s : State} (h : ReadingInv s) : ReadingInv (setPending ws s) :=
  { h with }

theorem readingInv_recordFault (c : FaultCause) (cw : Command) {s : State} (h : ReadingInv s) :
    ReadingInv (recordFault c cw s) := { h with }

theorem readingInv_setLastFail (b : Bool) {s : State} (h : ReadingInv s) : ReadingInv (setLastFail b s) := { h with }

theorem readingInv_setPhase (b : Bool) {s : State} (h : ReadingInv s) : ReadingInv (setPhase b s) := { h with }

theorem readingInv_emit (e : Event) {s : State} (h : ReadingInv s) : ReadingInv (emit e s) := { h with }

theorem readingInv_countDiag {s : State} (h : ReadingInv s) : ReadingInv (countDiag s) := { h with }

theorem readingInv_setIb (m : Memory) {s : State} (h : ReadingInv s) : ReadingInv (setIb m s) := { h with }

/-- The range of a raw reading (R21, R112). -/
theorem decoded_range (raw : Vector Byte 8) :
    (BitVec.ofNat 32 (decodeT raw)).toNat < 2 ^ 20 ∧ (BitVec.ofNat 32 (decodeH raw)).toNat < 2 ^ 16 := by
  have := decodeT_lt raw
  have := decodeH_lt raw
  simp only [BitVec.toNat_ofNat]
  omega

/-- A session boundary leaves no reading for the flags to promise anything of (R106). -/
theorem readingInv_endSession {s : State} (h : ReadingInv s) : ReadingInv (endSession s) :=
  { h with
    rawRange := by simp
    together := by simp
    temperature := by simp
    humidity := by simp }

theorem readingInv_loseCalibration {s : State} (h : ReadingInv s) : ReadingInv (loseCalibration (endSession s)) :=
  { readingInv_endSession h with
    temperature := by simp
    humidity := by simp
    calError := by simp
    packedUnsigned := by simp
    packedSigned := by simp
    sharedNibble := by simp }

/-- The constants of a successful CALLD meet R103. -/
theorem readingInv_loadCalibration {s : State} (h : ReadingInv s) (c1 : Vector Byte 25) (c2 : Vector Byte 7) :
    ReadingInv (loadCalibration (unpack s.params.h45Signed c1 c2) (endSession s)) :=
  { readingInv_endSession h with
    temperature := by simp
    humidity := by simp
    calError := by simp
    packedUnsigned := fun _ hb => by
      simp only [loadCalibration_params, endSession_params] at hb
      simpa [hb] using unpack_packedUnsigned c1 c2
    packedSigned := fun _ hb => by
      simp only [loadCalibration_params, endSession_params] at hb
      simpa [hb] using unpack_packedSigned c1 c2
    sharedNibble := fun _ => unpack_sharedNibble s.params.h45Signed c1 c2 }

theorem readingInv_acqRead {s : State} (h : ReadingInv s) (raw : Vector Byte 8) :
    ReadingInv (setLastFail false (clearResults
      (storeRaw (BitVec.ofNat 32 (decodeT raw)) (BitVec.ofNat 32 (decodeH raw)) s))) :=
  { h with
    rawRange := fun _ => decoded_range raw
    together := by simp
    temperature := by simp
    humidity := by simp }

/-- TCOMP repeats the compensation of the same raw reading, so a humidity that was valid is still that of T_FINE. -/
theorem readingInv_tcomp {s : State} (h : ReadingInv s) (hc : s.calValid = true) (hr : s.rawValid = true) :
    ReadingInv (storeTemperature (tempCompCal s.cal s.adcT).1 (tempCompCal s.cal s.adcT).2 s) :=
  { h with
    together := by simp
    temperature := fun _ => ⟨hc, hr, rfl⟩
    humidity := fun hh => by
      obtain ⟨ht, hhum⟩ := h.humidity hh
      obtain ⟨-, -, htemp⟩ := h.temperature ht
      exact ⟨rfl, by simpa [htemp] using hhum⟩ }

theorem readingInv_hcomp {s : State} (h : ReadingInv s) (ht : s.tfValid = true) :
    ReadingInv (storeHumidity (humComp s.params.hpoly s.cal s.tFine s.adcH) s) :=
  { h with humidity := fun _ => ⟨ht, rfl⟩ }

/-- A failed cycle takes the validity of the reading with the reading (R144). -/
theorem readingInv_zeroReading {s : State} (h : ReadingInv s) : ReadingInv (zeroReading s) :=
  { h with
    currentRange := by simp
    placeholder := by simp }

theorem readingInv_cycleFailed {s : State} (h : ReadingInv s) :
    ReadingInv (setPhase false (cycleFailed (setPhase true s))) :=
  readingInv_setPhase false <| readingInv_emit .diag <| readingInv_countDiag <| readingInv_setLastFail true <|
    readingInv_zeroReading <| readingInv_setPhase true h

theorem readingInv_cycleRead {s : State} (h : ReadingInv s) (hc : s.calValid = true) (raw : Vector Byte 8) :
    ReadingInv (setPhase false
      (cycleSucceeded (BitVec.ofNat 32 (decodeT raw)) (BitVec.ofNat 32 (decodeH raw)) (setPhase true s))) :=
  { h with
    rawRange := fun _ => decoded_range raw
    together := rfl
    temperature := fun _ => ⟨hc, rfl, rfl⟩
    humidity := fun _ => ⟨rfl, rfl⟩
    currentRange := humComp_le _ _ _ _
    placeholder := fun hv => by simp [cycleSucceeded] at hv }

/-- After reset no flag promises anything and the reading is 0 (R42). -/
theorem readingInv_resetEngine (s : State) : ReadingInv (resetEngine s) := by
  constructor <;> simp

theorem readingInv_bodyRun {i : Instr} {s t : State} (hr : BodyRun i s t) (h : ReadingInv s) : ReadingInv t := by
  cases hr with
  | calldFailed => exact readingInv_loseCalibration h
  | calldLoaded _ c1 c2 => exact readingInv_loadCalibration h c1 c2
  | acqFailed => exact readingInv_setLastFail true h
  | acqRead _ raw => exact readingInv_acqRead h raw
  | tcomp _ hc hr => exact readingInv_tcomp h hc hr
  | hcomp _ _ _ ht => exact readingInv_hcomp h ht
  | cycleFailed => exact readingInv_cycleFailed h
  | cycleRead _ raw hc => exact readingInv_cycleRead h hc raw
  | srst => exact readingInv_resetEngine s
  | wrb => exact readingInv_setIb _ h
  | rd => exact readingInv_emit _ h

/-- Settles O51: each whole run writes a register together with the flag that promises something of it. -/
theorem stepKeepsReadingInv : Obligations.StepKeepsReadingInv := fun _ _ hs h =>
  step_keeps (fun ws _ => readingInv_setPending ws) (fun c cw _ => readingInv_recordFault c cw)
    (fun _ _ _ => readingInv_bodyRun) hs h

/-- Settles O48: at reset every flag is 0, every cell unwritten and the reading 0. -/
theorem resetMeetsTheInvariants : Obligations.ResetMeetsTheInvariants := by
  refine ⟨⟨nil_wf, fun a b h => ?_⟩, ⟨rfl, fun _ => rfl, fun h => ?_⟩, ?_⟩
  · cases h
  · cases h
  · constructor <;> simp [State.reset]

/-! ### Two states no command can tell apart -/

theorem sameObservable_setPending (ws : List Command) {s t : State} (h : SameObservable s t) :
    SameObservable (setPending ws s) (setPending ws t) := { h with pending := rfl }

theorem sameObservable_recordFault (c : FaultCause) (cw : Command) {s t : State} (h : SameObservable s t) :
    SameObservable (recordFault c cw s) (recordFault c cw t) := { h with fault := rfl, faulted := rfl }

theorem sameObservable_enterFault (c : FaultCause) (cw : Command) {s t : State} (h : SameObservable s t) :
    SameObservable (enterFault c cw s) (enterFault c cw t) := by
  cases hf : t.faulted with
  | false =>
    rw [enterFault_of_not_faulted (h.faulted.trans hf), enterFault_of_not_faulted hf]
    exact sameObservable_recordFault c cw h
  | true =>
    rw [enterFault_of_faulted (h.faulted.trans hf), enterFault_of_faulted hf]
    exact h

theorem sameObservable_emit (e : Event) {s t : State} (h : SameObservable s t) :
    SameObservable (emit e s) (emit e t) := { h with history := by simp [h.history] }

theorem sameObservable_setIb (m : Memory) {s t : State} (h : SameObservable s t) :
    SameObservable (setIb m s) (setIb m t) := { h with ib := rfl }

theorem sameObservable_setLastFail (b : Bool) {s t : State} (h : SameObservable s t) :
    SameObservable (setLastFail b s) (setLastFail b t) := { h with lastFail := rfl }

theorem sameObservable_setPhase (b : Bool) {s t : State} (h : SameObservable s t) :
    SameObservable (setPhase b s) (setPhase b t) := { h with phase := rfl }

theorem sameObservable_countDiag {s t : State} (h : SameObservable s t) :
    SameObservable (countDiag s) (countDiag t) := { h with diagcnt := by simp [h.diagcnt] }

theorem sameObservable_zeroReading {s t : State} (h : SameObservable s t) :
    SameObservable (zeroReading s) (zeroReading t) := { h with curT := rfl, curH := rfl, curValid := rfl }

theorem sameObservable_publishReading (u v : Word) {s t : State} (h : SameObservable s t) :
    SameObservable (publishReading u v s) (publishReading u v t) := { h with curT := rfl, curH := rfl, curValid := rfl }

theorem sameObservable_storeRaw (u v : Word) {s t : State} (h : SameObservable s t) :
    SameObservable (storeRaw u v s) (storeRaw u v t) :=
  { h with rawValid := rfl, adcT := fun _ => rfl, adcH := fun _ => rfl }

theorem sameObservable_storeTemperature (u v : Word) {s t : State} (h : SameObservable s t) :
    SameObservable (storeTemperature u v s) (storeTemperature u v t) :=
  { h with tfValid := rfl, toutValid := rfl, tFine := fun _ => rfl, tOut := fun _ => rfl }

theorem sameObservable_storeHumidity (v : Word) {s t : State} (h : SameObservable s t) :
    SameObservable (storeHumidity v s) (storeHumidity v t) := { h with houtValid := rfl, hOut := fun _ => rfl }

theorem sameObservable_loadCalibration (c : Calibration) {s t : State} (h : SameObservable s t) :
    SameObservable (loadCalibration c s) (loadCalibration c t) :=
  { h with calValid := rfl, calErr := rfl, cal := fun _ => rfl }

/-- A cleared guard hides what its register holds (R31, R115). -/
theorem sameObservable_clearResults {s t : State} (h : SameObservable s t) :
    SameObservable (clearResults s) (clearResults t) :=
  { h with
    tfValid := rfl
    toutValid := rfl
    houtValid := rfl
    tFine := by simp
    tOut := by simp
    hOut := by simp }

theorem sameObservable_endSession {s t : State} (h : SameObservable s t) :
    SameObservable (endSession s) (endSession t) :=
  { sameObservable_clearResults h with
    rawValid := rfl
    adcT := by simp
    adcH := by simp }

/-- The free value of a lost calibration stands behind CAL_VALID 0 (R105). -/
theorem sameObservable_loseCalibration {s t : State} (h : SameObservable s t) :
    SameObservable (loseCalibration s) (loseCalibration t) :=
  { h with
    calValid := rfl
    calErr := rfl
    cal := by simp }

/-- The free values of a reset stand behind guards that are 0 (R156). -/
theorem sameObservable_resetEngine {s t : State} (h : SameObservable s t) :
    SameObservable (resetEngine s) (resetEngine t) := by
  constructor <;> simp [h.params, h.pending, h.history]

/-! ### What a command can see -/

/-- Two bodies raise the same fault, or both run whole into states no command can tell apart. -/
inductive SameResult : Except FaultCause State → Except FaultCause State → Prop where
  | error (c : FaultCause) : SameResult (.error c) (.error c)
  | ok {s t : State} : SameObservable s t → SameResult (.ok s) (.ok t)

theorem statusWord_congr {s t : State} (h : SameObservable s t) : statusWord s = statusWord t := by
  simp only [statusWord, h.calValid, h.rawValid, h.tfValid, h.toutValid, h.houtValid, h.curValid, h.lastFail, h.calErr,
    h.faulted, h.phase]

theorem guardFlag_congr {s t : State} (h : SameObservable s t) (g : Guard) : guardFlag s g = guardFlag t g := by
  cases g with
  | calValid => exact h.calValid
  | rawValid => exact h.rawValid
  | tfValid => exact h.tfValid
  | toutValid => exact h.toutValid
  | houtValid => exact h.houtValid

theorem readable_congr {s t : State} (h : SameObservable s t) (r : Reg) : readable s r = readable t r := by
  unfold readable
  cases guardOf r with
  | none => rfl
  | some g => exact guardFlag_congr h g

/-- A register that may be read shows the same value in both states (R31). -/
theorem regValue_congr {s t : State} (h : SameObservable s t) {r : Reg} (hr : readable s r = true) :
    regValue s r = regValue t r := by
  cases r
  case status => exact statusWord_congr h
  case fault => exact h.fault
  case diagcnt => exact h.diagcnt
  case curT => exact h.curT
  case curH => exact h.curH
  case tOut => exact h.tOut hr
  case hOut => exact h.hOut hr
  case tFine => exact h.tFine hr
  case adcT => exact h.adcT hr
  case adcH => exact h.adcH hr
  all_goals
    have hcal : s.cal = t.cal := h.cal hr
    simp only [regValue, hcal]

theorem calibrationReadFailed_congr {s t : State} (h : SameObservable s t) :
    calibrationReadFailed s = calibrationReadFailed t := by
  simp only [calibrationReadFailed, h.params, h.ib]

theorem calldBody_sameResult {s t : State} (h : SameObservable s t) : SameResult (calldBody s) (calldBody t) := by
  have hsession := sameObservable_endSession h
  simp only [calldBody, calibrationReadFailed_congr h, h.ib, h.params]
  rcases calibrationReadFailed t with c | _ | _
  · exact .error c
  · rcases loadRange t.ib cal1Base 25 with c | c1
    · exact .error c
    · rcases loadRange t.ib cal2Base 7 with c | c2
      · exact .error c
      · exact .ok (sameObservable_loadCalibration _ hsession)
  · exact .ok (sameObservable_loseCalibration hsession)

theorem acqBody_sameResult {s t : State} (h : SameObservable s t) : SameResult (acqBody s) (acqBody t) := by
  simp only [acqBody, h.ib]
  rcases acquire t.ib with c | _ | ⟨u, v⟩
  · exact .error c
  · exact .ok (sameObservable_setLastFail true h)
  · exact .ok (sameObservable_setLastFail false (sameObservable_clearResults (sameObservable_storeRaw u v h)))

/-- TCOMP reads the constants and ADC_T after it has tested their guards (R120). -/
theorem tcompBody_sameResult {s t : State} (h : SameObservable s t) : SameResult (tcompBody s) (tcompBody t) := by
  rcases tcompBody_cases s with ⟨hc, e⟩ | ⟨hc, hr, e⟩ | ⟨hc, hr, e⟩ <;> rw [e]
  · simpa [tcompBody, ← h.calValid, hc] using SameResult.error .calInvalid
  · simpa [tcompBody, ← h.calValid, ← h.rawValid, hc, hr] using SameResult.error .rawInvalid
  · simpa [tcompBody, ← h.calValid, ← h.rawValid, hc, hr, h.cal hc, h.adcT hr] using
      SameResult.ok (sameObservable_storeTemperature _ _ h)

/-- HCOMP reads the constants, ADC_H and T_FINE after it has tested their guards (R130). -/
theorem hcompBody_sameResult {s t : State} (h : SameObservable s t) : SameResult (hcompBody s) (hcompBody t) := by
  rcases hcompBody_cases s with ⟨hc, e⟩ | ⟨hc, hr, e⟩ | ⟨hc, hr, ht, e⟩ | ⟨hc, hr, ht, e⟩ <;> rw [e]
  · simpa [hcompBody, ← h.calValid, hc] using SameResult.error .calInvalid
  · simpa [hcompBody, ← h.calValid, ← h.rawValid, hc, hr] using SameResult.error .rawInvalid
  · simpa [hcompBody, ← h.calValid, ← h.rawValid, ← h.tfValid, hc, hr, ht] using SameResult.error .tfineInvalid
  · simpa [hcompBody, ← h.calValid, ← h.rawValid, ← h.tfValid, hc, hr, ht, h.cal hc, h.adcH hr, h.tFine ht, h.params]
      using SameResult.ok (sameObservable_storeHumidity _ h)

theorem sameObservable_cycleFailed {s t : State} (h : SameObservable s t) :
    SameObservable (cycleFailed s) (cycleFailed t) :=
  sameObservable_emit .diag <| sameObservable_countDiag <| sameObservable_setLastFail true <|
    sameObservable_zeroReading h

theorem sameObservable_cycleSucceeded (u v : Word) {s t : State} (h : SameObservable s t) (hc : s.calValid = true) :
    SameObservable (cycleSucceeded u v s) (cycleSucceeded u v t) := by
  simp only [cycleSucceeded, h.cal hc, h.params]
  exact sameObservable_setLastFail false <| sameObservable_publishReading _ _ <| sameObservable_storeHumidity _ <|
    sameObservable_storeTemperature _ _ <| sameObservable_storeRaw u v h

/-- CYCLE reads the constants after it has tested CAL_VALID (R141). -/
theorem cycleBody_sameResult {s t : State} (h : SameObservable s t) : SameResult (cycleBody s) (cycleBody t) := by
  have hphase := sameObservable_setPhase true h
  simp only [cycleBody, ← h.calValid, ← h.ib]
  cases hc : s.calValid with
  | false => exact .error .calInvalid
  | true =>
    rcases acquire s.ib with c | _ | ⟨u, v⟩
    · exact .error c
    · exact .ok (sameObservable_setPhase false (sameObservable_cycleFailed hphase))
    · exact .ok (sameObservable_setPhase false (sameObservable_cycleSucceeded u v hphase hc))

theorem wrbBody_sameResult (addr : BitVec 6) (data : Byte) {s t : State} (h : SameObservable s t) :
    SameResult (wrbBody addr data s) (wrbBody addr data t) := by
  simp only [wrbBody, h.ib]
  split
  · exact .ok (sameObservable_setIb _ h)
  · exact .error .illegalAddr

theorem rdBody_sameResult (reg : BitVec 6) {s t : State} (h : SameObservable s t) :
    SameResult (rdBody reg s) (rdBody reg t) := by
  unfold rdBody
  cases regOfNumber reg with
  | none => exact .error .illegalReg
  | some r =>
    simp only [← readable_congr h r]
    cases hr : readable s r with
    | false => exact .error .uninitRead
    | true =>
      rw [← regValue_congr h hr]
      exact .ok (sameObservable_emit _ h)

theorem bodyOf_sameResult (i : Instr) {s t : State} (h : SameObservable s t) :
    SameResult (bodyOf i s) (bodyOf i t) := by
  cases i with
  | calld => exact calldBody_sameResult h
  | acq => exact acqBody_sameResult h
  | tcomp => exact tcompBody_sameResult h
  | hcomp => exact hcompBody_sameResult h
  | cycle => exact cycleBody_sameResult h
  | srst => exact .ok (sameObservable_resetEngine h)
  | wrb addr data => exact wrbBody_sameResult addr data h
  | rd reg => exact rdBody_sameResult reg h

/-- One command keeps two such states indistinguishable: it is dropped in both, or its bodies have the same result. -/
theorem exec_sameObservable (i : Instr) {s t : State} (h : SameObservable s t) :
    ∃ s' t', exec i s = .next s' ∧ exec i t = .next t' ∧ SameObservable s' t' := by
  have hbody := bodyOf_sameResult i h
  simp only [exec_eq_runCommand, runCommand, h.faulted]
  split
  · exact ⟨s, t, rfl, rfl, h⟩
  · generalize bodyOf i s = x, bodyOf i t = y at hbody
    cases hbody with
    | error c => exact ⟨_, _, rfl, rfl, sameObservable_enterFault c _ h⟩
    | ok h' => exact ⟨_, _, rfl, rfl, h'⟩

theorem step_sameObservable {s t : State} (h : SameObservable s t) :
    ∃ s' t', step s = .next s' ∧ step t = .next t' ∧ SameObservable s' t' := by
  cases hp : t.pending with
  | nil => exact ⟨s, t, by simp [step, takeWord_nil (h.pending.trans hp)], by simp [step, takeWord_nil hp], h⟩
  | cons cw rest =>
    have htaken := sameObservable_setPending rest h
    simp only [step, takeWord_cons (h.pending.trans hp), takeWord_cons hp]
    cases decode cw with
    | ok i => exact exec_sameObservable i htaken
    | error e => exact ⟨_, _, rfl, rfl, sameObservable_enterFault .illegalCmd cw htaken⟩

/-- Settles O52: every body reads a guarded register only after it has tested its guard. -/
theorem unguardedContentIsUnobservable : Obligations.UnguardedContentIsUnobservable := by
  intro s t s' t' h hs ht
  obtain ⟨u, v, hu, hv, huv⟩ := step_sameObservable h
  rw [hu] at hs
  rw [hv] at ht
  cases hs
  cases ht
  exact huv

/-! ### STATUS -/

/-- Bit `k` of STATUS, with each flag at its own place only (R32). -/
theorem statusWord_getLsbD (s : State) (k : Nat) :
    (statusWord s).getLsbD k =
      (s.calValid && decide (k = 0) || s.rawValid && decide (k = 1) || s.tfValid && decide (k = 2)
        || s.toutValid && decide (k = 3) || s.houtValid && decide (k = 4) || s.curValid && decide (k = 5)
        || s.lastFail && decide (k = 6) || s.calErr && decide (k = 7) || s.faulted && decide (k = 8)
        || s.phase && decide (k = 9)) := by
  simp [statusWord, flagBit_getLsbD]

/-- Settles O13: bit `k` of STATUS is the flag R32 puts there, and past bit 9 there is none. -/
theorem statusBits : Obligations.StatusBits := by
  intro s
  simp only [statusWord_getLsbD]
  refine ⟨by simp, by simp, by simp, by simp, by simp, by simp, by simp, by simp, by simp, by simp, fun k hk => ?_⟩
  have hne : ∀ n, n < 10 → k ≠ n := fun n hn => by omega
  simp [hne]

/-! ### Who writes what (R43) -/

/-- The CAL column of the write matrix for a whole run. -/
theorem BodyRun.calibration {i : Instr} {s t : State} (h : BodyRun i s t) (hcalld : i ≠ .calld) (hsrst : i ≠ .srst) :
    t.cal = s.cal ∧ t.calValid = s.calValid ∧ t.calErr = s.calErr := by
  cases h
  case calldFailed | calldLoaded => exact absurd rfl hcalld
  case srst => exact absurd rfl hsrst
  all_goals simp [Machine.cycleFailed, cycleSucceeded]

/-- The CUR and DIAGCNT columns of the write matrix for a whole run. -/
theorem BodyRun.reading {i : Instr} {s t : State} (h : BodyRun i s t) (hcycle : i ≠ .cycle) (hsrst : i ≠ .srst) :
    t.curT = s.curT ∧ t.curH = s.curH ∧ t.curValid = s.curValid ∧ t.diagcnt = s.diagcnt := by
  cases h
  case cycleFailed | cycleRead => exact absurd rfl hcycle
  case srst => exact absurd rfl hsrst
  all_goals simp

/-- The IB column of the write matrix for a whole run. -/
theorem BodyRun.buffer {i : Instr} {s t : State} (h : BodyRun i s t) (hsrst : i ≠ .srst) (hwrb : ∀ a d, i ≠ .wrb a d) :
    t.ib = s.ib := by
  cases h
  case srst => exact absurd rfl hsrst
  case wrb => exact absurd rfl (hwrb _ _)
  all_goals simp [Machine.cycleFailed, cycleSucceeded]

/-- Settles O42: a command that is dropped or faults writes FAULT and FAULTED at most, and of the whole runs only those of
CALLD and SRST write the column. -/
theorem onlyCalldAndSrstWriteCalibration : Obligations.OnlyCalldAndSrstWriteCalibration := by
  intro i s t h hcalld hsrst
  rcases exec_next_cases h with ⟨-, rfl⟩ | ⟨-, c, -, rfl⟩ | hr
  exacts [⟨rfl, rfl, rfl⟩, ⟨rfl, rfl, rfl⟩, hr.calibration hcalld hsrst]

/-- Settles O43, as O42 for the columns that CYCLE writes. -/
theorem onlyCycleAndSrstWriteTheReading : Obligations.OnlyCycleAndSrstWriteTheReading := by
  intro i s t h hcycle hsrst
  rcases exec_next_cases h with ⟨-, rfl⟩ | ⟨-, c, -, rfl⟩ | hr
  exacts [⟨rfl, rfl, rfl, rfl⟩, ⟨rfl, rfl, rfl, rfl⟩, hr.reading hcycle hsrst]

/-- Settles O44, as O42 for the column that WRB writes. -/
theorem onlyWrbAndSrstWriteTheBuffer : Obligations.OnlyWrbAndSrstWriteTheBuffer := by
  intro i s t h hsrst hwrb
  rcases exec_next_cases h with ⟨-, rfl⟩ | ⟨-, c, -, rfl⟩ | hr
  exacts [rfl, rfl, hr.buffer hsrst hwrb]

/-- Settles O7: with no word on the port `takeWord` has none to give. -/
theorem stepWaitsWithoutWord : Obligations.StepWaitsWithoutWord := by
  intro s h
  simp only [step, takeWord_nil h]

end Sys2Proof.Machine
end

section
/-!
PROOFS. The input buffer as an invariant (spec/20_memory.md R51, R52) and the command a step runs (R60).
-/

namespace Sys2Proof.Machine

/-! ### The input buffer -/

/-- The invariant speaks of the input buffer only. -/
theorem memoryInv_of_ib_eq {s t : State} (h : MemoryInv s) (hib : t.ib = s.ib) : MemoryInv t where
  canonical := by rw [hib, h.canonical]
  assigned := by rw [hib]; exact h.assigned

/-- A write keeps the list rising, and the one cell it may add is the assigned one it writes (R150). -/
theorem memoryInv_memWrite {addr : BitVec 6} (data : Byte) {s : State} (ha : addrAssigned addr = true)
    (h : MemoryInv s) : MemoryInv (setIb (memWrite s.ib addr.toNat data) s) where
  canonical := memWrite_wf addr.toNat data h.canonical
  assigned a b hb := by
    rw [setIb_ib, memRead_memWrite] at hb
    split at hb
    · next haddr => exact ⟨addr, haddr.symm, ha⟩
    · exact h.assigned a b hb

/-- After a reset no cell is written (R42, R156). -/
theorem memoryInv_resetEngine (s : State) : MemoryInv (resetEngine s) where
  canonical := nil_wf
  assigned a b hb := by simp at hb

/-- Only SRST and WRB touch the buffer: the one empties it, the other writes an assigned cell (R43, R52). -/
theorem memoryInv_bodyRun {i : Instr} {s t : State} (hr : BodyRun i s t) (h : MemoryInv s) : MemoryInv t := by
  cases hr with
  | srst => exact memoryInv_resetEngine s
  | wrb addr data _ ha => exact memoryInv_memWrite data ha h
  | _ => exact memoryInv_of_ib_eq h rfl

/-- Settles O49: taking a word and recording a fault leave the buffer as it is, and every whole run keeps the invariant. -/
theorem stepKeepsMemoryInv : Obligations.StepKeepsMemoryInv := fun _ _ hs h =>
  step_keeps (P := MemoryInv) (fun _ _ hs => memoryInv_of_ib_eq hs rfl) (fun _ _ _ hs => memoryInv_of_ib_eq hs rfl)
    (fun _ _ _ => memoryInv_bodyRun) hs h

/-! ### The command of a step -/

/-- Settles O6: `takeWord` gives the first word and the state without it, and `step` runs what the word decodes to. -/
theorem stepRunsDecodedCommand : Obligations.StepRunsDecodedCommand := by
  intro s cw rest i hp hd
  simp only [step, takeWord_cons hp, hd, setPending]

end Sys2Proof.Machine
end

section
/-!
PROOFS. Commands and words (spec/30_encoding.md R78 to R91): the decoder and the encoder undo each other, the decoder refuses
exactly the table of R84, and what the engine does with a reserved word and with an RD that has no value to give.
-/

namespace Sys2Proof

/-! ### Words as numbers -/

/-- A field of a word is a quotient and a remainder of its number (R78). -/
theorem extractLsb'_eq_iff (cw : Command) (start len : Nat) (v : BitVec len) :
    cw.extractLsb' start len = v ↔ cw.toNat / 2 ^ start % 2 ^ len = v.toNat := by
  rw [← BitVec.toNat_inj, BitVec.extractLsb'_toNat, Nat.shiftRight_eq_div_pow]

/-- A format-W word is the sum of its fields at their places (R80). -/
theorem toNat_formatW (addr : BitVec 6) (data : Byte) :
    (formatW addr data).toNat = 0x4000 + addr.toNat * 0x100 + data.toNat := by
  have htop := (extractLsb'_eq_iff _ 14 2 _).mp (formatW_top addr data)
  have haddr := (extractLsb'_eq_iff _ 8 6 _).mp (formatW_addr addr data)
  have hdata := (extractLsb'_eq_iff _ 0 8 _).mp (formatW_data addr data)
  simp only [BitVec.reduceToNat] at htop
  omega

theorem toNat_formatR (reg : BitVec 6) : (formatR reg).toNat = 0x8000 + reg.toNat := by
  revert reg; decide

theorem toNat_formatO (funct : BitVec 4) : (formatO funct).toNat = funct.toNat * 0x100 := by
  revert funct; decide

/-! ### The decoder on the words of the three formats -/

theorem decode_formatW (addr : BitVec 6) (data : Byte) : decode (formatW addr data) = .ok (.wrb addr data) := by
  simp [decode, formatW_top, formatW_addr, formatW_data]

theorem decode_formatR (reg : BitVec 6) : decode (formatR reg) = .ok (.rd reg) := by
  simp [decode, formatR_top, formatR_opcode, formatR_zeros, formatR_reg]

theorem decode_formatO (funct : BitVec 4) : decode (formatO funct) = decodeFunct funct := by
  revert funct; decide

/-- A `funct` selects a command, whose word is then the format-O word of that `funct`, or is one of those that R84 leaves
unassigned. -/
theorem decodeFunct_cases (funct : BitVec 4) :
    (∃ i, decodeFunct funct = .ok i ∧ encode i = formatO funct)
      ∨ ∃ e, decodeFunct funct = .error e ∧ (funct.toNat = 0 ∨ 6 ≤ funct.toNat ∧ funct.toNat ≤ 14) := by
  unfold decodeFunct
  split_ifs with h1 h2 h3 h4 h5 h15 h0
  iterate 6 exact .inl ⟨_, rfl, by subst funct; rfl⟩
  · exact .inr ⟨_, rfl, .inl (by rw [h0]; rfl)⟩
  · exact .inr ⟨_, rfl, by bv_omega⟩

/-- Settles O1: the decoder reads back the fields each format puts into its word. -/
theorem decodeOfEncode : Obligations.DecodeOfEncode := by
  intro i
  cases i with
  | wrb addr data => exact decode_formatW addr data
  | rd reg => exact decode_formatR reg
  | calld => exact decode_formatO 0x1
  | acq => exact decode_formatO 0x2
  | tcomp => exact decode_formatO 0x3
  | hcomp => exact decode_formatO 0x4
  | cycle => exact decode_formatO 0x5
  | srst => exact decode_formatO 0xF

/-- Settles O4: each sample is the word of its command. -/
theorem sampleWordsDecode : Obligations.SampleWordsDecode :=
  ⟨decodeOfEncode .calld, decodeOfEncode .acq, decodeOfEncode .tcomp, decodeOfEncode .hcomp, decodeOfEncode .cycle,
    decodeOfEncode .srst, decodeOfEncode (.wrb 0x28 0x60), decodeOfEncode (.rd 0x04)⟩

/-! ### The decoder on every word -/

/-- The six rows of R84. -/
def ReservedRow (cw : Command) : Prop :=
  cw.toNat = 0
    ∨ (∃ f, 6 ≤ f ∧ f ≤ 14 ∧ cw.toNat = f * 0x100)
    ∨ (cw.toNat ≤ 0x0FFF ∧ cw.toNat % 256 ≠ 0)
    ∨ (0x1000 ≤ cw.toNat ∧ cw.toNat ≤ 0x3FFF)
    ∨ (0x8040 ≤ cw.toNat ∧ cw.toNat ≤ 0x8FFF)
    ∨ 0x9000 ≤ cw.toNat

/-- EVERYTHING THE DECODER CAN DO (R82): the word is that of the command it answers, or stands in a row of R84. -/
theorem decode_cases (cw : Command) :
    (∃ i, decode cw = .ok i ∧ encode i = cw) ∨ ∃ e, decode cw = .error e ∧ ReservedRow cw := by
  unfold decode
  simp only [extractLsb'_eq_iff, BitVec.reduceToNat]
  split_ifs with hW hR hreg hO hlow hlow3
  · refine .inl ⟨_, rfl, BitVec.eq_of_toNat_eq ?_⟩
    simp only [encode, toNat_formatW, BitVec.extractLsb'_toNat, Nat.shiftRight_eq_div_pow]
    omega
  · refine .inl ⟨_, rfl, BitVec.eq_of_toNat_eq ?_⟩
    simp only [encode, toNat_formatR, BitVec.extractLsb'_toNat, Nat.shiftRight_eq_div_pow]
    omega
  · exact .inr ⟨_, rfl, by unfold ReservedRow; omega⟩
  · have hfunct := (extractLsb'_eq_iff cw 8 4 _).mp rfl
    have hword : formatO (cw.extractLsb' 8 4) = cw := BitVec.eq_of_toNat_eq (by rw [toNat_formatO]; omega)
    rcases decodeFunct_cases (cw.extractLsb' 8 4) with ⟨i, hd, hi⟩ | ⟨e, hd, h0 | ⟨h6, h14⟩⟩
    · exact .inl ⟨i, hd, hi.trans hword⟩
    · exact .inr ⟨e, hd, .inl (by omega)⟩
    · exact .inr ⟨e, hd, .inr (.inl ⟨_, h6, h14, by omega⟩)⟩
  · exact .inr ⟨_, rfl, by unfold ReservedRow; omega⟩
  · exact .inr ⟨_, rfl, by unfold ReservedRow; omega⟩
  · exact .inr ⟨_, rfl, by unfold ReservedRow; omega⟩

/-- No command has a word of R84. -/
theorem not_reservedRow_encode (i : Instr) : ¬ ReservedRow (encode i) := by
  intro h
  cases i with
  | wrb addr data =>
    simp only [ReservedRow, encode, toNat_formatW] at h
    omega
  | rd reg =>
    simp only [ReservedRow, encode, toNat_formatR] at h
    omega
  | _ =>
    simp only [ReservedRow, encode, toNat_formatO, BitVec.ofNat_eq_ofNat, BitVec.reduceToNat] at h
    omega

/-- Settles O2: of the two things the decoder can do, it answers a command on that command's word only. -/
theorem encodeOfDecode : Obligations.EncodeOfDecode := by
  intro cw i h
  rcases decode_cases cw with ⟨j, hj, hcw⟩ | ⟨e, he, -⟩
  · rw [h] at hj
    cases hj
    exact hcw
  · rw [h] at he
    cases he

/-- Settles O3: a word that decodes is the word of a command, and no command has a word of R84. -/
theorem reservedWordsAreTheTable : Obligations.ReservedWordsAreTheTable := by
  intro cw
  change (∃ e, decode cw = .error e) ↔ ReservedRow cw
  rcases decode_cases cw with ⟨i, hd, rfl⟩ | ⟨e, hd, hrow⟩
  · simp [hd, not_reservedRow_encode]
  · simp [hd, hrow]

namespace Machine

/-! ### The textual form -/

/-- Settles O5: each line parses to its command, whose word is the spec's. -/
theorem sampleLinesAssemble : Obligations.SampleLinesAssemble :=
  ⟨by decide, by decide, by decide, by decide, by decide, by decide, by decide⟩

/-! ### Words and operands that fault -/

theorem step_of_decode_error {s : State} {cw : Command} {rest : List Command} {e : ReservedWord}
    (hp : s.pending = cw :: rest) (hd : decode cw = .error e) :
    step s = .next (rejectWord cw (setPending rest s)) := by
  simp only [step, takeWord_cons hp, hd]

/-- Settles O8: the engine rejects the word, and one that is not faulted records it (R176). -/
theorem reservedWordRaisesIllegalCmd : Obligations.ReservedWordRaisesIllegalCmd := by
  intro s cw rest e hf hp hd
  have hf' : (setPending rest s).faulted = false := hf
  rw [step_of_decode_error hp hd, rejectWord, enterFault_of_not_faulted hf']
  rfl

/-- The columns of R88 are what the model says of each register in turn. -/
theorem readTable_eq_map (s : State) :
    readTable s = allRegs.map fun r => (regNumber r, readable s r, regValue s r) := rfl

/-- A row of R88 is the number, the guard and the pattern of one register. -/
theorem exists_reg_of_mem_readTable {s : State} {n : BitVec 6} {b : Bool} {v : Word} (h : (n, b, v) ∈ readTable s) :
    ∃ r, regOfNumber n = some r ∧ readable s r = b ∧ regValue s r = v := by
  rw [readTable_eq_map] at h
  obtain ⟨r, -, hr⟩ := List.mem_map.mp h
  cases hr
  exact ⟨r, regOfNumber_regNumber r, rfl, rfl⟩

/-- An RD of an unassigned number raises ILLEGAL_REG (R89). -/
theorem exec_rd_unassigned {s : State} {n : BitVec 6} (hf : s.faulted = false) (hn : regOfNumber n = none) :
    exec (.rd n) s = .next (faultedWith 3 (formatR n) s) := by
  have hb : rdBody n s = .error .illegalReg := by simpa [hn] using rdBody_cases n s
  rw [exec_error (i := .rd n) hf hb]
  rfl

/-- An RD of a register whose guard is 0 raises UNINIT_READ (R89). -/
theorem exec_rd_unreadable {s : State} {n : BitVec 6} {r : Reg} (hf : s.faulted = false)
    (hn : regOfNumber n = some r) (hr : readable s r = false) :
    exec (.rd n) s = .next (faultedWith 8 (formatR n) s) := by
  have hb : rdBody n s = .error .uninitRead := by simpa [hn, hr] using rdBody_cases n s
  rw [exec_error (i := .rd n) hf hb]
  rfl

/-- Settles O19: the word is the format-R word of the number, which names no register or, by its row of R88, one that may
not be read. -/
theorem rdWithoutValueFaults : Obligations.RdWithoutValueFaults := by
  intro s n hf
  refine ⟨decode_formatR n, fun hn => exec_rd_unassigned hf ((regOfNumber_eq_none n).mpr hn), fun v hv => ?_⟩
  obtain ⟨r, hreg, hguard, -⟩ := exists_reg_of_mem_readTable hv
  exact exec_rd_unreadable hf hreg hguard

end Machine

end Sys2Proof
end

section
/-!
PROOFS. The calibration load (spec/40_calibration.md R100 to R108): what CALLD reads and faults on, the constants it leaves, how
RD shows the packed ones, and what repeating a command does.
-/

namespace Sys2Proof.Machine

/-! ### The status cells -/

/-- CALLD goes on to the data cells: under `silent` always, under `error` when both statuses are 0 (R100 step 1, R105). -/
def ReadsData (s : State) : Prop :=
  s.params.calFailPolicy = .silent ∨ (memRead s.ib 0x38 = some 0 ∧ memRead s.ib 0x39 = some 0)

theorem calibrationReadFailed_of_readsData {s : State} (h : ReadsData s) : calibrationReadFailed s = .ok false := by
  cases hp : s.params.calFailPolicy with
  | silent => simp only [calibrationReadFailed, hp]
  | error =>
    obtain ⟨h1, h2⟩ := h.resolve_left (by simp [hp])
    simp only [calibrationReadFailed, hp, loadCell_ok (a := bstCal1) h1, loadCell_ok (a := bstCal2) h2]
    rfl

theorem calibrationReadFailed_of_status {s : State} {b1 b2 : Byte} (hp : s.params.calFailPolicy = .error)
    (h1 : memRead s.ib 0x38 = some b1) (h2 : memRead s.ib 0x39 = some b2) (hb : b1 ≠ 0 ∨ b2 ≠ 0) :
    calibrationReadFailed s = .ok true := by
  simp only [calibrationReadFailed, hp, loadCell_ok (a := bstCal1) h1, loadCell_ok (a := bstCal2) h2]
  simpa [statusFailed] using hb

theorem calibrationReadFailed_of_unwritten {s : State} (hp : s.params.calFailPolicy = .error)
    (h : memRead s.ib 0x38 = none ∨ memRead s.ib 0x39 = none) : calibrationReadFailed s = .error .uninitInput := by
  simp only [calibrationReadFailed, hp]
  rcases loadCell_cases s.ib bstCal1 with ⟨s1, h1, e1⟩ | ⟨-, e1⟩
  · have h2 : memRead s.ib 0x39 = none := h.resolve_left fun h0 => Option.some_ne_none s1 (h1.symm.trans h0)
    simp only [e1, loadCell_error (a := bstCal2) h2]
  · simp only [e1]

/-- A load leaves the status cells and the policy. -/
theorem calibrationReadFailed_loadCalibration (c : Calibration) (s : State) :
    calibrationReadFailed (loadCalibration c (endSession s)) = calibrationReadFailed s := rfl

/-! ### The outcomes of CALLD -/

/-- The success path of CALLD (R100). -/
theorem calldBody_of_cellsHold {s : State} {c1 : Vector Byte 25} {c2 : Vector Byte 7} (hd : ReadsData s)
    (h1 : cellsHold s.ib 0x00 c1) (h2 : cellsHold s.ib 0x20 c2) :
    calldBody s = .ok (loadCalibration (unpack s.params.h45Signed c1 c2) (endSession s)) := by
  have e1 : loadRange s.ib cal1Base 25 = .ok c1 := loadRange_ok h1
  have e2 : loadRange s.ib cal2Base 7 = .ok c2 := loadRange_ok h2
  simp only [calldBody, calibrationReadFailed_of_readsData hd, e1, e2]

theorem exec_calld_of_cellsHold {s : State} {c1 : Vector Byte 25} {c2 : Vector Byte 7} (hf : s.faulted = false)
    (hd : ReadsData s) (h1 : cellsHold s.ib 0x00 c1) (h2 : cellsHold s.ib 0x20 c2) :
    exec .calld s = .next (loadCalibration (unpack s.params.h45Signed c1 c2) (endSession s)) :=
  exec_ok (i := .calld) hf (calldBody_of_cellsHold hd h1 h2)

/-- An unwritten data cell of either block stops the load before its first write (R53, R100). -/
theorem calldBody_of_someUnwritten {s : State} (hd : ReadsData s)
    (h : someUnwritten s.ib 0x00 25 ∨ someUnwritten s.ib 0x20 7) : calldBody s = .error .uninitInput := by
  simp only [calldBody, calibrationReadFailed_of_readsData hd]
  rcases loadRange_cases s.ib cal1Base 25 with ⟨c1, h1, e1⟩ | ⟨-, e1⟩
  · have hcal2 : someUnwritten s.ib 0x20 7 := h.resolve_left fun ⟨k, hk, hnone⟩ =>
      Option.some_ne_none c1[k] ((h1 k hk).symm.trans hnone)
    have e2 : loadRange s.ib cal2Base 7 = .error .uninitInput := loadRange_error hcal2
    simp only [e1, e2]
  · simp only [e1]

/-! ### The packed constants -/

/-- Under H45_SIGNED 1 a byte above four bits is a signed byte above them (R103). -/
theorem toInt_store12_nibble (b : Byte) {low : Nat} (hlow : low < 16) :
    (store12 true (16 * b.toNat + low)).toInt = 16 * b.toInt + low := by
  have hb := b.isLt
  rw [toInt_store12_true (by omega), BitVec.toInt_eq_toNat_cond]
  omega

/-- Under H45_SIGNED 0 a packed constant is never negative, so its sign extension changes nothing (R104). -/
theorem sextWord_store12_false {h : Nat} (hh : h < 4096) : sextWord (store12 false h) = BitVec.ofNat 32 h := by
  have hn : (store12 false h).toNat = h := toNat_store12_false hh
  have hmsb : (store12 false h).msb = false := BitVec.msb_eq_false_iff_two_mul_lt.mpr (by omega)
  rw [sextWord, BitVec.signExtend_eq_setWidth_of_msb_false hmsb]
  exact BitVec.eq_of_toNat_eq (by rw [BitVec.toNat_setWidth, hn, BitVec.toNat_ofNat])

/-- The success path of RD (R152). -/
theorem exec_rd_readable {s : State} {n : BitVec 6} {r : Reg} (hf : s.faulted = false)
    (hn : regOfNumber n = some r) (hr : readable s r = true) :
    exec (.rd n) s = .next { s with history := s.history ++ [.out (regValue s r)] } := by
  have hb : rdBody n s = .ok (emit (.out (regValue s r)) s) := by simpa [hn, hr] using rdBody_cases n s
  exact exec_ok (i := .rd n) hf hb

/-! ### Repeating a command -/

/-- A command that leaves the engine unfaulted has run whole. -/
theorem bodyOf_ok_of_exec_next {i : Instr} {s t : State} (h : exec i s = .next t) (ht : t.faulted = false) :
    bodyOf i s = .ok t := by
  rw [exec_eq_runCommand] at h
  rcases runCommand_cases i (bodyOf i) s with ⟨hdrop, e⟩ | ⟨-, u, hb, e⟩ | ⟨-, c, -, e⟩ <;> rw [e] at h <;> cases h
  · exact absurd (.inl ht) hdrop
  · exact hb
  · cases hf : s.faulted with
    | true => simp [enterFault_of_faulted hf, hf] at ht
    | false => simp [enterFault_of_not_faulted hf] at ht

/-- A command whose body, once it has run whole, leaves its own result as it is can be repeated at once. -/
theorem exec_repeat {i : Instr} {s t : State} (h : exec i s = .next t) (ht : t.faulted = false)
    (hrepeat : bodyOf i s = .ok t → bodyOf i t = .ok t) : exec i t = .next t :=
  exec_ok ht (hrepeat (bodyOf_ok_of_exec_next h ht))

theorem loadCalibration_endSession_twice (c : Calibration) (s : State) :
    loadCalibration c (endSession (loadCalibration c (endSession s))) = loadCalibration c (endSession s) := rfl

theorem storeTemperature_twice (t tFine : Word) (s : State) :
    storeTemperature t tFine (storeTemperature t tFine s) = storeTemperature t tFine s := rfl

theorem storeHumidity_twice (h : Word) (s : State) : storeHumidity h (storeHumidity h s) = storeHumidity h s := rfl

/-- A CALLD that succeeded leaves the cells and parameters it reads, so it unpacks the same constants again (R107). -/
theorem calldBody_repeat {s t : State} (h : calldBody s = .ok t) (hv : t.calValid = true) : calldBody t = .ok t := by
  unfold calldBody at h
  split at h
  · cases h
  · cases h
    simp at hv
  · next hfail =>
    split at h
    · cases h
    · next c1 h1 =>
      split at h
      · cases h
      · next c2 h2 =>
        cases h
        simp [calldBody, calibrationReadFailed_loadCalibration, hfail, h1, h2, loadCalibration_endSession_twice]

/-- TCOMP leaves its guards and what it reads (R126). -/
theorem tcompBody_repeat {s t : State} (h : tcompBody s = .ok t) : tcompBody t = .ok t := by
  cases bodyRun_of_ok (i := .tcomp) h with
  | tcomp _ hc hr => simp [tcompBody, hc, hr, storeTemperature_twice]

/-- HCOMP leaves its guards and what it reads (R139). -/
theorem hcompBody_repeat {s t : State} (h : hcompBody s = .ok t) : hcompBody t = .ok t := by
  cases bodyRun_of_ok (i := .hcomp) h with
  | hcomp _ hc hr ht => simp [hcompBody, hc, hr, ht, storeHumidity_twice]

/-! ### The obligations -/

/-- Settles O20: the constants are those of `unpack`, each field a sum of its bytes. -/
theorem calldLoadsTheConstants : Obligations.CalldLoadsTheConstants := by
  intro s c1 c2 hf hd h1 h2
  refine ⟨unpack s.params.h45Signed c1 c2, exec_calld_of_cellsHold hf hd h1 h2, toNat_le16 _ _, toNat_le16 _ _,
    toNat_le16 _ _, toNat_le16 _ _, toNat_le16 _ _, toNat_le16 _ _, toNat_le16 _ _, toNat_le16 _ _, toNat_le16 _ _,
    toNat_le16 _ _, toNat_le16 _ _, toNat_le16 _ _, rfl, toNat_le16 _ _, rfl, fun hsign => ?_, fun hsign => ?_, rfl⟩
  · simp only [unpack, hsign]
    exact ⟨(toNat_store12_false (packH4_lt _ _)).trans (packH4_eq _ _),
      (toNat_store12_false (packH5_lt _ _)).trans (packH5_eq _ _)⟩
  · have hhigh : c2[5].toNat / 16 < 16 := Nat.div_lt_of_lt_mul c2[5].isLt
    have hlow : c2[4].toNat % 16 < 16 := Nat.mod_lt _ (by decide)
    simp only [unpack, hsign, packH4_eq, packH5_eq]
    exact ⟨toInt_store12_nibble _ hlow, toInt_store12_nibble _ hhigh⟩

/-- Settles O22: a status cell is met before the data cells, and both before the first write. -/
theorem calldUnwrittenFaults : Obligations.CalldUnwrittenFaults := by
  intro s hf h
  have hb : calldBody s = .error .uninitInput := by
    rcases h with ⟨hp, hstatus⟩ | ⟨hd, hdata⟩
    · simp only [calldBody, calibrationReadFailed_of_unwritten hp hstatus]
    · exact calldBody_of_someUnwritten hd hdata
  rw [exec_error (i := .calld) hf hb]
  rfl

/-- Settles O23: RD sign-extends the two stored constants, which are below 4096. -/
theorem packedHumidityConstants : Obligations.PackedHumidityConstants := by
  intro s c1 c2 hf hsign hs1 hs2 h1 h2
  have hload := exec_calld_of_cellsHold hf (.inr ⟨hs1, hs2⟩) h1 h2
  rw [hsign] at hload
  refine ⟨_, hload, ?_, ?_⟩
  · rw [← packH4, ← sextWord_store12_false (packH4_lt _ _)]
    exact exec_rd_readable (s := loadCalibration _ (endSession s)) hf (regOfNumber_regNumber .digH4) rfl
  · rw [← packH5, ← sextWord_store12_false (packH5_lt _ _)]
    exact exec_rd_readable (s := loadCalibration _ (endSession s)) hf (regOfNumber_regNumber .digH5) rfl

/-- Settles O41: each body, once it has run whole, answers its own result again. -/
theorem repeatingACommandChangesNothing : Obligations.RepeatingACommandChangesNothing :=
  ⟨fun _ _ h ht hv => exec_repeat h ht fun hb => calldBody_repeat hb hv,
    fun _ _ h ht => exec_repeat h ht tcompBody_repeat, fun _ _ h ht => exec_repeat h ht hcompBody_repeat⟩

/-- Settles O21: a status that is not 0 ends the session and loses the calibration before any data cell is read. -/
theorem calldReportsAFailedRead : Obligations.CalldReportsAFailedRead := by
  intro s b1 b2 hf hp h1 h2 hb
  have hlose : calldBody s = .ok (loseCalibration (endSession s)) := by
    simp only [calldBody, calibrationReadFailed_of_status hp h1 h2 hb]
  exact ⟨_, _, exec_ok (i := .calld) hf hlose⟩

end Sys2Proof.Machine
end

section
/-!
PROOFS. The acquisition (spec/41_acquisition.md R110 to R115): the three outcomes of `Acquire`, each from the cells control
reaches, and what ACQ and the HCOMP after it make of them.
-/

namespace Sys2Proof.Machine

/-! ### The outcomes of Acquire -/

theorem statusFailed_zero : statusFailed 0#8 = false := rfl

theorem statusFailed_of_ne_zero {b : Byte} (h : b ≠ 0) : statusFailed b = true := bne_iff_ne.mpr h

/-- Both statuses, the identity and the eight raw cells let control reach the last line of R111. -/
theorem acquire_of_cellsHold {m : Memory} {raw : Vector Byte 8} (hsid : memRead m 0x3A = some 0)
    (hid : memRead m 0x28 = some 0x60) (hsraw : memRead m 0x3B = some 0) (hraw : cellsHold m 0x30 raw) :
    acquire m = .ok (some (BitVec.ofNat 32 (decodeT raw), BitVec.ofNat 32 (decodeH raw))) := by
  have eraw : loadRange m rawBase 8 = .ok raw := loadRange_ok hraw
  simp [acquire, loadCell_ok (a := bstId) hsid, loadCell_ok (a := idCell) hid, loadCell_ok (a := bstRaw) hsraw, eraw,
    statusFailed_zero, chipIdExpected]

/-- The three ways to fail: each needs only the cells read before it (R111, R113). -/
theorem acquire_of_failedCheck {m : Memory} {id sid sraw : Byte}
    (h : (memRead m 0x3A = some sid ∧ sid ≠ 0)
      ∨ (memRead m 0x3A = some 0 ∧ memRead m 0x28 = some id ∧ id ≠ 0x60)
      ∨ (memRead m 0x3A = some 0 ∧ memRead m 0x28 = some 0x60 ∧ memRead m 0x3B = some sraw ∧ sraw ≠ 0)) :
    acquire m = .ok none := by
  rcases h with ⟨hsid, hbad⟩ | ⟨hsid, hid, hbad⟩ | ⟨hsid, hid, hsraw, hbad⟩
  · simp only [acquire, loadCell_ok (a := bstId) hsid, statusFailed_of_ne_zero hbad, if_true]
  · have hchip : (id != chipIdExpected) = true := bne_iff_ne.mpr hbad
    simp [acquire, loadCell_ok (a := bstId) hsid, loadCell_ok (a := idCell) hid, statusFailed_zero, hchip]
  · simp [acquire, loadCell_ok (a := bstId) hsid, loadCell_ok (a := idCell) hid, loadCell_ok (a := bstRaw) hsraw,
      statusFailed_zero, chipIdExpected, statusFailed_of_ne_zero hbad]

/-- The four lines of R111 that can meet an unwritten cell (R53). -/
theorem acquire_of_unwritten {m : Memory}
    (h : memRead m 0x3A = none
      ∨ (memRead m 0x3A = some 0 ∧ memRead m 0x28 = none)
      ∨ (memRead m 0x3A = some 0 ∧ memRead m 0x28 = some 0x60 ∧ memRead m 0x3B = none)
      ∨ (memRead m 0x3A = some 0 ∧ memRead m 0x28 = some 0x60 ∧ memRead m 0x3B = some 0 ∧ someUnwritten m 0x30 8)) :
    acquire m = .error .uninitInput := by
  rcases h with hsid | ⟨hsid, hid⟩ | ⟨hsid, hid, hsraw⟩ | ⟨hsid, hid, hsraw, hraw⟩
  · simp only [acquire, loadCell_error (a := bstId) hsid]
  · simp [acquire, loadCell_ok (a := bstId) hsid, loadCell_error (a := idCell) hid, statusFailed_zero]
  · simp [acquire, loadCell_ok (a := bstId) hsid, loadCell_ok (a := idCell) hid, loadCell_error (a := bstRaw) hsraw,
      statusFailed_zero, chipIdExpected]
  · have eraw : loadRange m rawBase 8 = .error .uninitInput := loadRange_error hraw
    simp [acquire, loadCell_ok (a := bstId) hsid, loadCell_ok (a := idCell) hid, loadCell_ok (a := bstRaw) hsraw, eraw,
      statusFailed_zero, chipIdExpected]

/-! ### HCOMP without a temperature -/

/-- HCOMP behind a cleared TF_VALID raises TFINE_INVALID once the two guards tested before it are set (R130). -/
theorem exec_hcomp_tfineInvalid {s : State} (hf : s.faulted = false) (hc : s.calValid = true) (hr : s.rawValid = true)
    (ht : s.tfValid = false) : exec .hcomp s = .next (faultedWith 7 0x0400 s) := by
  have hb : hcompBody s = .error .tfineInvalid := by simpa [hc, hr, ht] using hcompBody_cases s
  rw [exec_error (i := .hcomp) hf hb]
  rfl

/-! ### The obligations -/

/-- Settles O24: the reading is the one `acquire_of_cellsHold` gives, its shifts and ors written as sums. -/
theorem acqDecodesTheRawBytes : Obligations.AcqDecodesTheRawBytes := by
  intro s raw hf hsid hid hsraw hraw
  have hb : acqBody s = .ok (setLastFail false (clearResults
      (storeRaw (BitVec.ofNat 32 (decodeT raw)) (BitVec.ofNat 32 (decodeH raw)) s))) := by
    simp only [acqBody, acquire_of_cellsHold hsid hid hsraw hraw]
  rw [exec_ok (i := .acq) hf hb, decodeT_eq, decodeH_eq]
  rfl

/-- Settles O40: an ACQ that leaves FAULTED and LAST_FAIL at 0 has read, so it set RAW_VALID and cleared TF_VALID, the first
guard HCOMP finds at 0. -/
theorem humidityNeedsANewTemperature : Obligations.HumidityNeedsANewTemperature := by
  intro s t _ hc hexec hf hlast
  cases bodyRun_of_ok (bodyOf_ok_of_exec_next hexec hf) with
  | acqFailed => cases hlast
  | acqRead _ raw => exact ⟨rfl, rfl, rfl, exec_hcomp_tfineInvalid hf hc rfl rfl⟩

/-- Settles O25: all three failures are the one outcome `none` of `Acquire`. -/
theorem acqFailureSetsLastFailOnly : Obligations.AcqFailureSetsLastFailOnly := by
  intro s id sid sraw hf h
  have hb : acqBody s = .ok (setLastFail true s) := by simp only [acqBody, acquire_of_failedCheck h]
  exact exec_ok (i := .acq) hf hb

/-- Settles O26: the fault of `Acquire` is the fault of ACQ, raised before its first write. -/
theorem acqUnwrittenFaults : Obligations.AcqUnwrittenFaults := by
  intro s hf h
  have hb : acqBody s = .error .uninitInput := by simp only [acqBody, acquire_of_unwritten h]
  rw [exec_error (i := .acq) hf hb]
  rfl

end Sys2Proof.Machine
end

section
/-!
PROOFS. The temperature compensation (spec/42_temperature.md R120 to R124): TCOMP on 32-bit vectors, its two faults, and what
the last shifts say of its results on exact integers.
-/

namespace Sys2Proof.Machine

/-! ### The outcomes of TCOMP -/

/-- The success path of TCOMP (R120). -/
theorem exec_tcomp_next {s : State} (hf : s.faulted = false) (hc : s.calValid = true) (hr : s.rawValid = true) :
    exec .tcomp s = .next (storeTemperature (tempCompCal s.cal s.adcT).1 (tempCompCal s.cal s.adcT).2 s) := by
  have hb : tcompBody s = .ok (storeTemperature (tempCompCal s.cal s.adcT).1 (tempCompCal s.cal s.adcT).2 s) := by
    simpa [hc, hr] using tcompBody_cases s
  exact exec_ok (i := .tcomp) hf hb

/-! ### The results on exact integers -/

/-- An arithmetic shift right by `n` leaves a signed number of `32 - n` bits, whatever was shifted (R11). -/
theorem toInt_sar32_bounds (a : Word) {n : Nat} (hn : n ≤ 31) :
    -2 ^ (31 - n) ≤ (sar32 a n).toInt ∧ (sar32 a n).toInt < 2 ^ (31 - n) := by
  have hpow : (2 : Int) ^ (31 - n) * 2 ^ n = 2 ^ 31 := by rw [← pow_add, Nat.sub_add_cancel hn]
  have hpos : (0 : Int) < 2 ^ n := by positivity
  rw [toInt_sar32, Int.le_ediv_iff_mul_le hpos, Int.ediv_lt_iff_lt_mul hpos, neg_mul, hpow]
  exact ⟨BitVec.le_toInt a, BitVec.toInt_lt⟩

/-- `t_fine` is the sum of a result shifted by 11 and one shifted by 14, which i32 holds (R121, R123). -/
theorem toInt_tempComp_tFine_bounds (digT1 digT2 digT3 adcT : Word) :
    -1179648 ≤ (tempComp digT1 digT2 digT3 adcT).2.toInt ∧ (tempComp digT1 digT2 digT3 adcT).2.toInt ≤ 1179646 := by
  simp only [tempComp]
  generalize mul32 (sub32 _ _) digT2 = x
  generalize mul32 _ digT3 = y
  have hx := toInt_sar32_bounds x (n := 11) (by decide)
  have hy := toInt_sar32_bounds y (n := 14) (by decide)
  rw [add32, toInt_wrap32 (by omega) (by omega)]
  omega

/-- The last line of R121 does not wrap on a `t_fine` in its range: i32 holds the product by 5 (R123, R124). -/
theorem toInt_sar32_mul_five {f : Word} (hlow : -1179648 ≤ f.toInt) (hhigh : f.toInt ≤ 1179646) :
    (sar32 (add32 (mul32 f 5) 128) 8).toInt = (5 * f.toInt + 128) / 256 := by
  have h5 : (5 : Word).toInt = 5 := rfl
  have h128 : (128 : Word).toInt = 128 := rfl
  have hmul : (mul32 f 5).toInt = f.toInt * 5 := by rw [mul32, h5, toInt_wrap32 (by omega) (by omega)]
  rw [toInt_sar32, add32, hmul, h128, toInt_wrap32 (by omega) (by omega), mul_comm]
  rfl

/-- What a TCOMP behind set guards leaves: a `t_fine` in its range, and the `T` that R124 rounds from it. -/
theorem toInt_results_of_exec_tcomp {s t : State} (hf : s.faulted = false) (hc : s.calValid = true)
    (hr : s.rawValid = true) (hexec : exec .tcomp s = .next t) :
    -1179648 ≤ t.tFine.toInt ∧ t.tFine.toInt ≤ 1179646 ∧ t.tOut.toInt = (5 * t.tFine.toInt + 128) / 256 := by
  rw [exec_tcomp_next hf hc hr] at hexec
  cases hexec
  obtain ⟨hlow, hhigh⟩ := toInt_tempComp_tFine_bounds (calT1 s.cal) (calT2 s.cal) (calT3 s.cal) s.adcT
  exact ⟨hlow, hhigh, toInt_sar32_mul_five hlow hhigh⟩

/-! ### The obligations -/

/-- Settles O29: the bounds of `t_fine` are those of its two shifted terms, and `T` is monotone in `t_fine`. -/
theorem temperatureStaysInRange : Obligations.TemperatureStaysInRange := by
  intro s t hf hc hr hexec
  obtain ⟨hlow, hhigh, hround⟩ := toInt_results_of_exec_tcomp hf hc hr hexec
  omega

/-- Settles O30: `T` is the floor of a quotient by 256, which its two inequalities characterise. -/
theorem temperatureRoundsToNearest : Obligations.TemperatureRoundsToNearest := by
  intro s t hf hc hr hexec
  obtain ⟨-, -, hround⟩ := toInt_results_of_exec_tcomp hf hc hr hexec
  omega

/-- Settles O27: the i32 primitives of the formula block are the vector operations. -/
theorem tcompComputesTheTemperature : Obligations.TcompComputesTheTemperature := by
  intro s hf hc hr t1 t2 t3 var1 var2
  have hpair : tempCompCal s.cal s.adcT = (((var1 + var2) * 5 + 128).sshiftRight 8, var1 + var2) := by
    simp only [tempCompCal, tempComp, add32_eq, sub32_eq, mul32_eq, shl32_eq, sar32_eq]
    rfl
  rw [exec_tcomp_next hf hc hr, hpair]
  rfl

/-- Settles O28: the body tests the two guards in this order, before its first write. -/
theorem tcompOutOfOrderFaults : Obligations.TcompOutOfOrderFaults := by
  intro s hf
  refine ⟨fun hc => ?_, fun hc hr => ?_⟩
  · have hb : tcompBody s = .error .calInvalid := by simpa [hc] using tcompBody_cases s
    rw [exec_error (i := .tcomp) hf hb]
    rfl
  · have hb : tcompBody s = .error .rawInvalid := by simpa [hc, hr] using tcompBody_cases s
    rw [exec_error (i := .tcomp) hf hb]
    rfl

end Sys2Proof.Machine
end

section
/-!
PROOFS. The humidity compensation (spec/43_humidity.md R130 to R136): the three faults of HCOMP, the clamp and the last
shift on exact integers, and that the shift by 20 discards the sign of `dig_H4`.
-/

namespace Sys2Proof.Machine

/-! ### The clamp on exact integers -/

/-- The last shift divides the clamped polynomial by 4096, rounding down (R133, R134). -/
theorem toNat_humComp (which : Config.HPoly) (c : Calibration) (tFine adcH : Word) :
    ((humComp which c tFine adcH).toNat : Int) =
      clampInt (hpoly which c tFine adcH).toInt hClampMin hClampMax / 4096 := by
  obtain ⟨hlow, hhigh⟩ := clampInt_bounds (hpoly which c tFine adcH).toInt (show hClampMin ≤ hClampMax by decide)
  have hmin : hClampMin = 0 := rfl
  have hmax : hClampMax = 419430400 := rfl
  have hle := humComp_le which c tFine adcH
  calc ((humComp which c tFine adcH).toNat : Int)
      = (humComp which c tFine adcH).toInt := (BitVec.toInt_eq_toNat_of_lt (by omega)).symm
    _ = clampInt (hpoly which c tFine adcH).toInt hClampMin hClampMax / 4096 := by
      rw [humComp, clampShift, toInt_sar32, toInt_wrap32 (by omega) (by omega)]
      rfl

/-! ### The sign of `dig_H4` -/

/-- A shift left by 20 keeps the low 12 bits alone (R11, R136). -/
theorem shl32_twenty_congr {a b : Word} (h : a.toInt % 4096 = b.toInt % 4096) : shl32 a 20 = shl32 b 20 := by
  apply BitVec.eq_of_toNat_eq
  simp only [shl32, wrap32, BitVec.toNat_ofInt]
  omega

/-- Both ways of storing a packed value, read as i32, leave it modulo 4096 (R103, R104, R136). -/
theorem toInt_sextWord_store12_emod (b : Bool) {h : Nat} (hh : h < 4096) :
    (sextWord (store12 b h)).toInt % 4096 = h := by
  have hmod := store12_toNat_mod b hh
  rw [sextWord, BitVec.toInt_signExtend_of_le (by decide), BitVec.toInt_eq_toNat_cond]
  omega

/-- The default polynomial reads `dig_H4` only behind the shift by 20 (R132, R136). -/
theorem hpolyVendor_congr_digH4 (c : Calibration) (tFine adcH : Word) {x y : BitVec 16}
    (h : (sextWord x).toInt % 4096 = (sextWord y).toInt % 4096) :
    hpolyVendor { c with digH4 := x } tFine adcH = hpolyVendor { c with digH4 := y } tFine adcH := by
  have hshl : shl32 (calH4 { c with digH4 := x }) 20 = shl32 (calH4 { c with digH4 := y }) 20 := shl32_twenty_congr h
  rw [hpolyVendor, hshl]
  rfl

/-! ### The obligations -/

/-- Settles O34: the value before the last shift is `clampInt` of the polynomial. -/
theorem humidityIsClamped : Obligations.HumidityIsClamped := by
  intro which c tFine adcH
  have hmin : hClampMin = 0 := rfl
  have hmax : hClampMax = 419430400 := rfl
  refine ⟨clampInt (hpoly which c tFine adcH).toInt hClampMin hClampMax, fun hneg => ?_, fun hbig => ?_,
    fun hlow hhigh => ?_, toNat_humComp which c tFine adcH, humComp_le which c tFine adcH⟩
  · rw [clampInt, if_pos (by omega), hmin]
  · rw [clampInt, if_neg (by omega), if_pos (by omega), hmax]
  · rw [clampInt, if_neg (by omega), if_neg (by omega)]

/-- Settles O35: both stored forms are the packed value modulo 4096, which is all the default polynomial reads. -/
theorem signOfH4DoesNotMatter : Obligations.SignOfH4DoesNotMatter := by
  intro c h tFine adcH hh
  have hmod : (sextWord (store12 true h)).toInt % 4096 = (sextWord (store12 false h)).toInt % 4096 :=
    (toInt_sextWord_store12_emod true hh).trans (toInt_sextWord_store12_emod false hh).symm
  exact congrArg clampShift (hpolyVendor_congr_digH4 c tFine adcH hmod)

/-- Settles O33: the body tests the three guards in this order, before its first write. -/
theorem hcompOutOfOrderFaults : Obligations.HcompOutOfOrderFaults := by
  intro s hf
  refine ⟨fun hc => ?_, fun hc hr => ?_, fun hc hr ht => exec_hcomp_tfineInvalid hf hc hr ht⟩
  · have hb : hcompBody s = .error .calInvalid := by simpa [hc] using hcompBody_cases s
    rw [exec_error (i := .hcomp) hf hb]
    rfl
  · have hb : hcompBody s = .error .rawInvalid := by simpa [hc, hr] using hcompBody_cases s
    rw [exec_error (i := .hcomp) hf hb]
    rfl

end Sys2Proof.Machine
end

section
/-!
PROOFS. The acquisition cycle (spec/44_cycle.md R140 to R149): the outcomes of CYCLE from those of `Acquire`, the three commands
a successful CYCLE is made of, and what every command leaves on the ports and in the host's list of texts.
-/

namespace Sys2Proof.Machine

/-! ### The outcomes of CYCLE -/

section
variable {s t : State}

/-- CAL_VALID is tested before the buffer is looked at (R141, R148). -/
theorem exec_cycle_calInvalid (hf : s.faulted = false) (hc : s.calValid = false) :
    exec .cycle s = .next (recordFault .calInvalid (encode .cycle) s) := by
  have hb : cycleBody s = .error .calInvalid := by simpa [hc] using cycleBody_cases s
  exact exec_error (i := .cycle) hf hb

/-- A fault of `Acquire` is raised before the first write of CYCLE (R141, R148). -/
theorem exec_cycle_of_acquire_error {c : FaultCause} (hf : s.faulted = false) (hc : s.calValid = true)
    (ha : acquire s.ib = .error c) : exec .cycle s = .next (recordFault c (encode .cycle) s) := by
  have hb : cycleBody s = .error c := by simp [cycleBody, hc, ha]
  exact exec_error (i := .cycle) hf hb

/-- The failure path of CYCLE (R141). -/
theorem exec_cycle_of_acquire_fail (hf : s.faulted = false) (hc : s.calValid = true) (ha : acquire s.ib = .ok none) :
    exec .cycle s = .next (setPhase false (cycleFailed (setPhase true s))) := by
  have hb : cycleBody s = .ok (setPhase false (cycleFailed (setPhase true s))) := by simp [cycleBody, hc, ha]
  exact exec_ok (i := .cycle) hf hb

/-- The success path of CYCLE (R141). -/
theorem exec_cycle_of_acquire_read {u v : Word} (hf : s.faulted = false) (hc : s.calValid = true)
    (ha : acquire s.ib = .ok (some (u, v))) :
    exec .cycle s = .next (setPhase false (cycleSucceeded u v (setPhase true s))) := by
  have hb : cycleBody s = .ok (setPhase false (cycleSucceeded u v (setPhase true s))) := by simp [cycleBody, hc, ha]
  exact exec_ok (i := .cycle) hf hb

/-- Everything a CYCLE can do from any state: it is dropped, faults, fails or reads, the last two as `Acquire` says. -/
theorem exec_cycle_cases (h : exec .cycle s = .next t) :
    (s.faulted = true ∧ t = s)
      ∨ (s.faulted = false ∧ ∃ c, t = recordFault c (encode .cycle) s)
      ∨ (s.faulted = false ∧ s.calValid = true ∧ acquire s.ib = .ok none
          ∧ t = setPhase false (cycleFailed (setPhase true s)))
      ∨ (s.faulted = false ∧ s.calValid = true ∧ ∃ u v, acquire s.ib = .ok (some (u, v))
          ∧ t = setPhase false (cycleSucceeded u v (setPhase true s))) := by
  rcases Bool.eq_false_or_eq_true s.faulted with hf | hf
  · rw [exec_eq_runCommand, runCommand_dropped hf rfl] at h
    cases h
    exact .inl ⟨hf, rfl⟩
  rcases Bool.eq_false_or_eq_true s.calValid with hc | hc
  · rcases ha : acquire s.ib with c | (_ | ⟨u, v⟩)
    · rw [exec_cycle_of_acquire_error hf hc ha] at h
      cases h
      exact .inr (.inl ⟨hf, c, rfl⟩)
    · rw [exec_cycle_of_acquire_fail hf hc ha] at h
      cases h
      exact .inr (.inr (.inl ⟨hf, hc, rfl, rfl⟩))
    · rw [exec_cycle_of_acquire_read hf hc ha] at h
      cases h
      exact .inr (.inr (.inr ⟨hf, hc, u, v, rfl, rfl⟩))
  · rw [exec_cycle_calInvalid hf hc] at h
    cases h
    exact .inr (.inl ⟨hf, _, rfl⟩)

/-- A CYCLE that faults, is dropped or succeeds leaves the ports (R143, R149). -/
theorem exec_cycle_history (h : exec .cycle s = .next t) (ht : t.faulted = true ∨ t.lastFail = false) :
    t.history = s.history := by
  rcases exec_cycle_cases h with ⟨-, rfl⟩ | ⟨-, c, rfl⟩ | ⟨hf, -, -, rfl⟩ | ⟨-, -, u, v, -, rfl⟩
  · rfl
  · rfl
  · simp [cycleFailed, hf] at ht
  · rfl

/-- The success path of ACQ (R110). -/
theorem exec_acq_of_acquire_read {u v : Word} (hf : s.faulted = false) (ha : acquire s.ib = .ok (some (u, v))) :
    exec .acq s = .next (setLastFail false (clearResults (storeRaw u v s))) := by
  have hb : acqBody s = .ok (setLastFail false (clearResults (storeRaw u v s))) := by simp only [acqBody, ha]
  exact exec_ok (i := .acq) hf hb

/-! ### The ports and the parameters -/

/-- The ports after a whole run of any other command: RD has added its Out (R152). -/
theorem BodyRun.history {i : Instr} (h : BodyRun i s t) (hcycle : i ≠ .cycle) :
    t.history = s.history ∨ ∃ n v, i = .rd n ∧ t.history = s.history ++ [.out v] := by
  cases h
  case cycleFailed | cycleRead => exact absurd rfl hcycle
  case rd n r _ _ => exact .inr ⟨n, regValue s r, rfl, rfl⟩
  all_goals exact .inl rfl

/-- No command but CYCLE emits a Diag (R143, R152). -/
theorem exec_history {i : Instr} (h : exec i s = .next t) (hcycle : i ≠ .cycle) :
    t.history = s.history ∨ ∃ n v, i = .rd n ∧ t.history = s.history ++ [.out v] := by
  rcases exec_next_cases h with ⟨-, rfl⟩ | ⟨-, c, -, rfl⟩ | hr
  exacts [.inl rfl, .inl rfl, hr.history hcycle]

/-- No command writes a parameter (R202). -/
theorem exec_params {i : Instr} (h : exec i s = .next t) : t.params = s.params := by
  rcases exec_next_cases h with ⟨-, rfl⟩ | ⟨-, c, -, rfl⟩ | hr
  · rfl
  · rfl
  · cases hr <;> rfl

/-! ### The host's diagnostic texts -/

theorem diagTexts_congr (hp : t.params = s.params) (hh : t.history = s.history) : diagTexts t = diagTexts s := by
  simp only [diagTexts, hp, hh]

/-- An Out writes no text, whether the host has one or not (R143). -/
theorem diagTexts_of_out {v : Word} (hp : t.params = s.params) (hh : t.history = s.history ++ [.out v]) :
    diagTexts t = diagTexts s := by
  cases htext : s.params.diagText <;> simp [diagTexts, hp, hh, htext]

/-- A Diag writes the host's text once (R143). -/
theorem diagTexts_of_diag {text : List Byte} (htext : s.params.diagText = some text) (hp : t.params = s.params)
    (hh : t.history = s.history ++ [.diag]) : diagTexts t = diagTexts s ++ [text] := by
  simp [diagTexts, hp, hh, htext]

end

/-! ### The obligations -/

/-- Settles O36: the reading is the one `acquire_of_cellsHold` gives, its shifts and ors written as sums. -/
theorem cycleMakesAReading : Obligations.CycleMakesAReading := by
  intro s raw hf hc hsid hid hsraw hraw
  rw [exec_cycle_of_acquire_read hf hc (acquire_of_cellsHold hsid hid hsraw hraw), decodeT_eq, decodeH_eq]
  rfl

/-- Settles O37: all three failures are the one outcome `none` of `Acquire`. -/
theorem cycleFailureZeroesTheReading : Obligations.CycleFailureZeroesTheReading := by
  intro s id sid sraw hf hc h
  exact exec_cycle_of_acquire_fail hf hc (acquire_of_failedCheck h)

/-- Settles O38: the calibration guard comes before the first read of `Acquire`, and both faults before the first write. -/
theorem cycleFaults : Obligations.CycleFaults := by
  intro s hf
  exact ⟨fun hc => exec_cycle_calInvalid hf hc,
    fun hc h => exec_cycle_of_acquire_error hf hc (acquire_of_unwritten h)⟩

/-- Settles O39: the reading of the same `Acquire` sets RAW_VALID for TCOMP, which sets TF_VALID for HCOMP. -/
theorem cycleIsAcqTcompHcomp : Obligations.CycleIsAcqTcompHcomp := by
  intro s t hf hexec ht hlast
  rcases exec_cycle_cases hexec with ⟨hf', -⟩ | ⟨-, c, rfl⟩ | ⟨-, -, -, rfl⟩ | ⟨-, hc, u, v, ha, rfl⟩
  · simp [hf] at hf'
  · simp at ht
  · simp [cycleFailed] at hlast
  · exact ⟨_, _, _, exec_acq_of_acquire_read hf ha, exec_tcomp_next hf hc rfl, exec_hcomp_next hf hc rfl rfl, rfl⟩

/-- Settles O45: the failure path is the one unfaulted end of CYCLE with LAST_FAIL 1, and the only one that emits a Diag. -/
theorem diagOnceForEachFailedCycle : Obligations.DiagOnceForEachFailedCycle := by
  intro i s t hexec
  refine ⟨?_, ?_, exec_history hexec⟩
  · rintro rfl hf ht hlast
    rcases exec_cycle_cases hexec with ⟨hf', -⟩ | ⟨-, c, rfl⟩ | ⟨-, -, -, rfl⟩ | ⟨-, -, u, v, -, rfl⟩
    · simp [hf] at hf'
    · simp at ht
    · exact ⟨rfl, rfl, rfl, rfl, rfl⟩
    · simp [cycleSucceeded] at hlast
  · rintro rfl hend
    exact exec_cycle_history hexec hend

/-- Settles O46: no command writes the text, so the list grows only by what the history adds to it. -/
theorem diagTextOnceForEachFailedCycle : Obligations.DiagTextOnceForEachFailedCycle := by
  intro s t text htext
  refine ⟨fun id sid sraw hf hc h hexec => ?_,
    fun hexec hend => diagTexts_congr (exec_params hexec) (exec_cycle_history hexec hend), fun i hi hexec => ?_⟩
  · have hparams := exec_params hexec
    rw [exec_cycle_of_acquire_fail hf hc (acquire_of_failedCheck h)] at hexec
    cases hexec
    exact diagTexts_of_diag htext hparams rfl
  · rcases exec_history hexec hi with hh | ⟨n, v, -, hh⟩
    · exact diagTexts_congr (exec_params hexec) hh
    · exact diagTexts_of_out (exec_params hexec) hh

end Sys2Proof.Machine
end

section
/-!
PROOFS. WRB and RD (spec/45_access_system.md R150 to R153).
-/

namespace Sys2Proof.Machine

/-! ### WRB -/

/-- The assigned addresses are the ranges of R51. -/
theorem addrAssigned_iff (a : BitVec 6) :
    addrAssigned a = true ↔
      a.toNat ≤ 0x18 ∨ (0x20 ≤ a.toNat ∧ a.toNat ≤ 0x26) ∨ a.toNat = 0x28 ∨ (0x30 ≤ a.toNat ∧ a.toNat ≤ 0x3B) := by
  simp [addrAssigned, or_assoc]

/-- The success path of WRB (R150). -/
theorem exec_wrb_assigned {s : State} {a : BitVec 6} (d : Byte) (hf : s.faulted = false) (ha : addrAssigned a = true) :
    exec (.wrb a d) s = .next { s with ib := memWrite s.ib a.toNat d } := by
  have hb : wrbBody a d s = .ok (setIb (memWrite s.ib a.toNat d) s) := by simpa [ha] using wrbBody_cases a d s
  exact exec_ok (i := .wrb a d) hf hb

/-- A WRB to an unassigned address raises ILLEGAL_ADDR (R52, R150). -/
theorem exec_wrb_unassigned {s : State} {a : BitVec 6} (d : Byte) (hf : s.faulted = false)
    (ha : addrAssigned a = false) : exec (.wrb a d) s = .next (faultedWith 2 (formatW a d) s) := by
  have hb : wrbBody a d s = .error .illegalAddr := by simpa [ha] using wrbBody_cases a d s
  rw [exec_error (i := .wrb a d) hf hb]
  rfl

/-! ### The obligations -/

/-- Settles O18: a row of the register table with guard 1 is the pattern of a register that may be read. -/
theorem rdEmitsTheRegister : Obligations.RdEmitsTheRegister := by
  intro s n v hf hrow
  obtain ⟨r, hreg, hguard, rfl⟩ := exists_reg_of_mem_readTable hrow
  exact exec_rd_readable hf hreg hguard

/-- Settles O16: the buffer after the write is `memWrite` of the one before, whose reads are known at every address. -/
theorem wrbStoresOneByte : Obligations.WrbStoresOneByte := by
  intro s a d hf ha
  exact ⟨_, exec_wrb_assigned d hf ((addrAssigned_iff a).mpr ha), memRead_memWrite_self s.ib a.toNat d,
    fun _ hne => memRead_memWrite_ne s.ib d hne⟩

/-- Settles O17: the unassigned ranges miss every assigned one, and the word in FAULT is the format-W word. -/
theorem wrbUnassignedFaults : Obligations.WrbUnassignedFaults := by
  intro s a d hf hranges
  have ha : addrAssigned a = false := by
    rw [← Bool.not_eq_true, addrAssigned_iff]
    omega
  exact exec_wrb_unassigned d hf ha

end Sys2Proof.Machine
end

section
/-!
PROOFS. The float view of the reading (spec/45_access_system.md R157 to R159): a rational a format can represent is rounded
to itself, by every rounding rule.
-/

namespace Sys2Proof.Machine

/-! ### Patterns and their values -/

/-- The rational a finite pattern without its sign stands for. -/
def magnitudeValue (fmt : Config.FloatLayout) (mag : Nat) : ℚ := floatSig fmt mag * 2 ^ floatUlp fmt mag

/-- A format holds `q` exactly: `q` is a significand of the format's width at an exponent not below the smallest one, and
below the first power of two past the largest finite number. -/
def Representable (fmt : Config.FloatLayout) (q : ℚ) : Prop :=
  ∃ (m : Nat) (k : Int), q = m * 2 ^ k ∧ m < 2 ^ fmt.precision
    ∧ 2 - (floatBias fmt : Int) - fmt.precision ≤ k ∧ q < 2 ^ (floatBias fmt + 1)

theorem Representable.lt {fmt : Config.FloatLayout} {q : ℚ} (hq : Representable fmt q) : q < 2 ^ (floatBias fmt + 1) := by
  obtain ⟨_, _, -, -, -, hlt⟩ := hq
  exact hlt

theorem two_mul_floatBias {fmt : Config.FloatLayout} (hexp : 1 ≤ fmt.expBits) :
    2 * floatBias fmt + 2 = 2 ^ fmt.expBits := by
  obtain ⟨j, hj⟩ := Nat.exists_eq_add_of_le' hexp
  have := Nat.one_le_two_pow (n := j)
  rw [floatBias, hj, Nat.pow_succ, Nat.add_sub_cancel]
  omega

theorem floatInf_eq {fmt : Config.FloatLayout} (hexp : 1 ≤ fmt.expBits) :
    floatInf fmt = (2 * floatBias fmt + 1) * 2 ^ (fmt.precision - 1) := by
  rw [floatInf, ← two_mul_floatBias hexp]
  rfl

theorem magnitudeValue_zero (fmt : Config.FloatLayout) : magnitudeValue fmt 0 = 0 := by
  simp [magnitudeValue, floatSig]

/-- A finite pattern leaves the sign bit 0, so its value is that of the pattern without its sign. -/
theorem floatValue_of_lt_floatInf {fmt : Config.FloatLayout} {mag : Nat} (hfin : mag < floatInf fmt) :
    floatValue fmt mag = magnitudeValue fmt mag := by
  have hlt : mag < 2 ^ (fmt.precision - 1 + fmt.expBits) := by
    rw [Nat.pow_add, Nat.mul_comm]
    exact lt_of_lt_of_le hfin (Nat.mul_le_mul_right _ (Nat.sub_le _ _))
  simp [floatValue, magnitudeValue, Nat.mod_eq_of_lt hlt, Nat.div_eq_of_lt hlt]

/-- The exponent field and the fraction of a packed pattern give back the exponent and the significand; a significand
without its leading bit stands in the lowest row only. -/
theorem magnitudeValue_pack {fmt : Config.FloatLayout} {n sig : Nat} (hsig : sig < 2 * 2 ^ (fmt.precision - 1))
    (hnormal : n ≠ 0 → 2 ^ (fmt.precision - 1) ≤ sig) :
    magnitudeValue fmt (n * 2 ^ (fmt.precision - 1) + sig)
      = sig * 2 ^ (2 - (floatBias fmt : Int) - fmt.precision + n) := by
  have hpos : 0 < 2 ^ (fmt.precision - 1) := Nat.two_pow_pos _
  rcases Nat.lt_or_ge sig (2 ^ (fmt.precision - 1)) with hsub | hnorm
  · obtain rfl : n = 0 := by_contra fun hn => (hnormal hn).not_gt hsub
    have hulp : 1 - (floatBias fmt : Int) - fmt.precision + 1 = 2 - floatBias fmt - fmt.precision := by ring
    simp [magnitudeValue, floatSig, floatUlp, Nat.div_eq_of_lt hsub, Nat.mod_eq_of_lt hsub, hulp]
  · obtain ⟨frac, rfl⟩ := Nat.exists_eq_add_of_le hnorm
    have hfrac : frac < 2 ^ (fmt.precision - 1) := by omega
    have hmag : n * 2 ^ (fmt.precision - 1) + (2 ^ (fmt.precision - 1) + frac)
        = frac + (n + 1) * 2 ^ (fmt.precision - 1) := by ring
    have hrow : (frac + (n + 1) * 2 ^ (fmt.precision - 1)) / 2 ^ (fmt.precision - 1) = n + 1 := by
      rw [Nat.add_mul_div_right _ _ hpos, Nat.div_eq_of_lt hfrac, Nat.zero_add]
    have hulp : 1 - (floatBias fmt : Int) - fmt.precision + (max (n + 1) 1 : Nat)
        = 2 - floatBias fmt - fmt.precision + n := by omega
    simp only [magnitudeValue, floatSig, floatUlp, hmag, hrow, hulp, Nat.add_mul_mod_self_right,
      Nat.mod_eq_of_lt hfrac, Nat.succ_ne_zero, if_false]

/-! ### Rounding -/

/-- No rule rounds a quotient that is whole. -/
theorem roundQuotient_of_dvd (rule : Config.Rounding) (neg : Bool) {num den q : Nat} (hden : 0 < den)
    (h : num = q * den) : roundQuotient rule neg num den = q := by
  have hzero : ¬ 0 = den := by omega
  cases rule <;> simp [roundQuotient, h, Nat.mul_div_cancel _ hden, hzero]

theorem two_zpow_toNat (z : Int) : (2 : ℚ) ^ z.toNat = 2 ^ z * 2 ^ (-z).toNat := by
  rw [← zpow_natCast, ← zpow_natCast, ← zpow_add₀ two_ne_zero]
  congr 1
  omega

/-- `quotientExponent` is the position of the leading bit of the quotient. -/
theorem quotientExponent_bounds {num den : Nat} (hnum : num ≠ 0) (hden : 0 < den) :
    (2 : ℚ) ^ quotientExponent num den ≤ num / den ∧ (num / den : ℚ) < 2 ^ (quotientExponent num den + 1) := by
  set shift := Nat.log2 den + 1 with hshift
  set x := num * 2 ^ shift / den with hx
  have hx0 : x ≠ 0 := by
    have : den < 2 ^ shift := Nat.lt_log2_self
    exact (Nat.div_pos (this.le.trans (Nat.le_mul_of_pos_left _ (Nat.pos_of_ne_zero hnum))) hden).ne'
  have hlow : 2 ^ x.log2 * den ≤ num * 2 ^ shift := (Nat.le_div_iff_mul_le hden).mp (Nat.log2_self_le hx0)
  have hhigh : num * 2 ^ shift < 2 ^ (x.log2 + 1) * den := (Nat.div_lt_iff_lt_mul hden).mp Nat.lt_log2_self
  have hdenQ : (0 : ℚ) < den := by exact_mod_cast hden
  have hpow : (0 : ℚ) < 2 ^ shift := by positivity
  have he : quotientExponent num den = x.log2 - shift := by simp [quotientExponent, hx, hshift]
  have he' : (x.log2 : Int) - shift + 1 = (x.log2 + 1 : Nat) - shift := by push_cast; ring
  rw [he, he', zpow_sub₀ two_ne_zero, zpow_sub₀ two_ne_zero, zpow_natCast, zpow_natCast, zpow_natCast,
    div_le_div_iff₀ hpow hdenQ, div_lt_div_iff₀ hdenQ hpow]
  exact ⟨by exact_mod_cast hlow, by exact_mod_cast hhigh⟩

/-- A representable rational scaled to the width of the significand is a whole number. -/
theorem exists_significand {fmt : Config.FloatLayout} {q : ℚ} (hq : Representable fmt q) {e : Int}
    (hhigh : q < 2 ^ (e + 1)) (hlow : (2 : ℚ) ^ e ≤ q ∨ e = 1 - floatBias fmt) :
    ∃ sig : Nat, q = sig * 2 ^ (e + 1 - fmt.precision) ∧ sig < 2 ^ fmt.precision
      ∧ ((2 : ℚ) ^ e ≤ q → 2 ^ fmt.precision ≤ 2 * sig) := by
  obtain ⟨m, k, rfl, hm, hk, -⟩ := hq
  have hexp : e + 1 - fmt.precision ≤ k := by
    rcases hlow with hlow | rfl
    · have hlt : (2 : ℚ) ^ e < 2 ^ (fmt.precision + k) := by
        rw [zpow_add₀ two_ne_zero, zpow_natCast]
        exact hlow.trans_lt (mul_lt_mul_of_pos_right (by exact_mod_cast hm) (by positivity))
      have := (zpow_lt_zpow_iff_right₀ one_lt_two).mp hlt
      omega
    · omega
  obtain ⟨j, hj⟩ := Int.le.dest hexp
  have hvalue : (m * 2 ^ k : ℚ) = (m * 2 ^ j : Nat) * 2 ^ (e + 1 - fmt.precision) := by
    rw [← hj, zpow_add₀ two_ne_zero, zpow_natCast]
    push_cast
    ring
  have hunit : (0 : ℚ) < 2 ^ (e + 1 - fmt.precision) := by positivity
  have htop : (2 : ℚ) ^ (e + 1) = 2 ^ fmt.precision * 2 ^ (e + 1 - fmt.precision) := by
    rw [← zpow_natCast, ← zpow_add₀ two_ne_zero]
    congr 1
    ring
  refine ⟨m * 2 ^ j, hvalue, ?_, fun hlow => ?_⟩
  · rw [hvalue, htop] at hhigh
    exact_mod_cast lt_of_mul_lt_mul_right hhigh hunit.le
  · have h2 : (2 : ℚ) ^ (e + 1) ≤ 2 * (m * 2 ^ k) := by
      rw [zpow_add_one₀ two_ne_zero, mul_comm]
      exact mul_le_mul_of_nonneg_left hlow zero_le_two
    rw [hvalue, htop, ← mul_assoc] at h2
    exact_mod_cast le_of_mul_le_mul_right h2 hunit

/-- The exponent `roundMagnitude` gives the leading bit of a positive quotient: not below the smallest of the format. -/
def leadingExponent (fmt : Config.FloatLayout) (num den : Nat) : Int :=
  max (quotientExponent num den) (1 - floatBias fmt)

theorem leadingExponent_bounds (fmt : Config.FloatLayout) {num den : Nat} (hnum : num ≠ 0) (hden : 0 < den) :
    (num / den : ℚ) < 2 ^ (leadingExponent fmt num den + 1)
      ∧ ((2 : ℚ) ^ leadingExponent fmt num den ≤ num / den ∨ leadingExponent fmt num den = 1 - floatBias fmt) := by
  obtain ⟨hlow, hhigh⟩ := quotientExponent_bounds hnum hden
  rw [leadingExponent]
  refine ⟨hhigh.trans_le (zpow_le_zpow_right₀ one_le_two (by omega)), ?_⟩
  rcases max_choice (quotientExponent num den) (1 - floatBias fmt) with h | h
  · exact .inl (by rwa [h])
  · exact .inr h

/-- A quotient below the first power of two past the largest finite number has an exponent the format's field holds. -/
theorem leadingExponent_le {fmt : Config.FloatLayout} {num den : Nat} (hexp : 2 ≤ fmt.expBits) (hnum : num ≠ 0)
    (hden : 0 < den) (hlt : (num / den : ℚ) < 2 ^ (floatBias fmt + 1)) :
    leadingExponent fmt num den ≤ floatBias fmt := by
  rcases (leadingExponent_bounds fmt hnum hden).2 with hlow | hmin
  · have hpow : (2 : ℚ) ^ leadingExponent fmt num den < 2 ^ ((floatBias fmt + 1 : Nat) : Int) := by
      rw [zpow_natCast]
      exact hlow.trans_lt hlt
    have := (zpow_lt_zpow_iff_right₀ one_lt_two).mp hpow
    omega
  · have := two_mul_floatBias (one_le_two.trans hexp)
    have : 2 ^ 2 ≤ 2 ^ fmt.expBits := Nat.pow_le_pow_right two_pos hexp
    omega

/-- Scaling a quotient `sig * 2 ^ (-scale)` by `2 ^ scale` leaves the whole number `sig`, which no rule rounds. -/
theorem roundQuotient_scaled (rule : Config.Rounding) (neg : Bool) {num den sig : Nat} {scale : Int} (hden : 0 < den)
    (h : (num / den : ℚ) = sig * 2 ^ (-scale)) :
    roundQuotient rule neg (num * 2 ^ scale.toNat) (den * 2 ^ (-scale).toNat) = sig := by
  have hdenQ : (den : ℚ) ≠ 0 := by exact_mod_cast hden.ne'
  have hnum : (num : ℚ) * 2 ^ scale.toNat = sig * (den * 2 ^ (-scale).toNat) := by
    rw [(div_eq_iff hdenQ).mp h, two_zpow_toNat, zpow_neg]
    field_simp
  exact roundQuotient_of_dvd rule neg (by positivity) (by exact_mod_cast hnum)

/-- A representable quotient is rounded to itself (R158). -/
theorem roundMagnitude_exact {fmt : Config.FloatLayout} (neg : Bool) {num den : Nat} (hprec : 1 ≤ fmt.precision)
    (hexp : 2 ≤ fmt.expBits) (hden : 0 < den) (hq : Representable fmt (num / den)) :
    roundMagnitude fmt neg num den < floatInf fmt
      ∧ magnitudeValue fmt (roundMagnitude fmt neg num den) = num / den := by
  have hinf := floatInf_eq (one_le_two.trans hexp)
  by_cases hnum : num = 0
  · simp [roundMagnitude, hnum, magnitudeValue_zero, hinf]
  obtain ⟨hhigh, hlow⟩ := leadingExponent_bounds fmt hnum hden
  obtain ⟨sig, hvalue, hsig, hnormal⟩ := exists_significand hq hhigh hlow
  have hle := leadingExponent_le hexp hnum hden hq.lt
  have hround := roundQuotient_scaled (scale := fmt.precision - 1 - leadingExponent fmt num den) fmt.rounding neg hden
    (by rw [hvalue]; congr 2; ring)
  have hmin : 1 - (floatBias fmt : Int) ≤ leadingExponent fmt num den := le_max_right _ _
  obtain ⟨row, hrow⟩ := Int.le.dest hmin
  have htwo : 2 ^ fmt.precision = 2 * 2 ^ (fmt.precision - 1) := by rw [mul_comm, Nat.two_pow_pred_mul_two hprec]
  have hfin : row * 2 ^ (fmt.precision - 1) + sig < floatInf fmt := by
    have : (row + 2) * 2 ^ (fmt.precision - 1) ≤ (2 * floatBias fmt + 1) * 2 ^ (fmt.precision - 1) :=
      Nat.mul_le_mul_right _ (by omega)
    rw [hinf]
    linarith
  have hmag : roundMagnitude fmt neg num den = row * 2 ^ (fmt.precision - 1) + sig := by
    have hrow' : (leadingExponent fmt num den - (1 - floatBias fmt)).toNat = row := by omega
    simp only [roundMagnitude, hnum, if_false]
    rw [← leadingExponent, hround, hrow', if_pos hfin]
  rw [hmag]
  refine ⟨hfin, ?_⟩
  rw [magnitudeValue_pack (by omega), hvalue, ← hrow]
  · congr 2
    ring
  · intro hne
    have := hnormal (hlow.resolve_right (by omega))
    omega

/-- A finite pattern whose value another format holds is narrowed to that value. -/
theorem narrowMagnitude_exact {wide fmt : Config.FloatLayout} (neg : Bool) {mag : Nat} (hprec : 1 ≤ fmt.precision)
    (hexp : 2 ≤ fmt.expBits) (hmag : mag < floatInf wide) (hq : Representable fmt (magnitudeValue wide mag)) :
    narrowMagnitude wide fmt neg mag < floatInf fmt
      ∧ magnitudeValue fmt (narrowMagnitude wide fmt neg mag) = magnitudeValue wide mag := by
  have hquot : magnitudeValue wide mag
      = (floatSig wide mag * 2 ^ (floatUlp wide mag).toNat : Nat) / (2 ^ (-floatUlp wide mag).toNat : Nat) := by
    push_cast
    rw [two_zpow_toNat, magnitudeValue]
    field_simp
  rw [hquot] at hq ⊢
  rw [narrowMagnitude, if_neg (by omega)]
  exact roundMagnitude_exact neg hprec hexp (Nat.two_pow_pos _) hq

/-! ### The humidity -/

/-- Every value of H_OUT over 1024 has 17 significant bits, and at most 7 of them before the point (R158). -/
theorem representable_humidity {fmt : Config.FloatLayout} {h : Nat} (hprec : 17 ≤ fmt.precision)
    (hexp : 4 ≤ fmt.expBits) (hh : h ≤ 102400) : Representable fmt (h / (1024 : Nat)) := by
  have hbias : 7 ≤ floatBias fmt := by
    have := two_mul_floatBias (le_trans (by decide) hexp)
    have : 2 ^ 4 ≤ 2 ^ fmt.expBits := Nat.pow_le_pow_right two_pos hexp
    omega
  have hwidth : 2 ^ 17 ≤ 2 ^ fmt.precision := Nat.pow_le_pow_right two_pos hprec
  have hrange : (2 : ℚ) ^ 8 ≤ 2 ^ (floatBias fmt + 1) := pow_le_pow_right₀ one_le_two (by omega)
  have hhQ : (h : ℚ) ≤ 102400 := by exact_mod_cast hh
  refine ⟨h, -10, by norm_num [div_eq_mul_inv], by omega, by omega, ?_⟩
  push_cast
  linarith

/-- The quotient is exact at once and through one format in between. -/
theorem quotientMagnitude_humidity {fmt : Config.FloatFmt} {h : Nat} (hprec : 17 ≤ fmt.precision)
    (hexp : 4 ≤ fmt.expBits) (hwide : ∀ wide, fmt.wider = some wide → 17 ≤ wide.precision ∧ 4 ≤ wide.expBits)
    (hh : h ≤ 102400) :
    quotientMagnitude fmt false h 1024 < floatInf fmt.toFloatLayout
      ∧ magnitudeValue fmt.toFloatLayout (quotientMagnitude fmt false h 1024) = (h : ℚ) / (1024 : Nat) := by
  have hfmt := representable_humidity hprec hexp hh
  rw [quotientMagnitude]
  cases hw : fmt.wider with
  | none => exact roundMagnitude_exact false (by omega) (by omega) (by decide) hfmt
  | some wide =>
    obtain ⟨hwprec, hwexp⟩ := hwide wide hw
    obtain ⟨hfin, hvalue⟩ := roundMagnitude_exact (fmt := wide) false (by omega) (by omega) (by decide)
      (representable_humidity hwprec hwexp hh)
    rw [← hvalue] at hfmt ⊢
    exact narrowMagnitude_exact false (by omega) (by omega) hfin hfmt

/-- Zero is rendered as the pattern 0, which is that of the quotient 0 (R159). -/
theorem renderFloat_natCast (fmt : Config.FloatFmt) (num den : Nat) :
    renderFloat fmt num den = if num = 0 then 0 else quotientMagnitude fmt false num den := by
  have hneg : ¬ (num : Int) < 0 := by omega
  simp [renderFloat, hneg]

/-! ### The obligations -/

/-- Settles O53: the quotient is representable in the format and in the one in between, so no rounding changes it. -/
theorem humidityFloatIsExact : Obligations.HumidityFloatIsExact := by
  intro fmt h hprec hexp hwide hh
  obtain ⟨hfin, hvalue⟩ := quotientMagnitude_humidity hprec hexp hwide hh
  rw [renderFloat_natCast]
  split
  · next hzero => simp [hzero, floatValue_of_lt_floatInf (pos_of_gt hfin), magnitudeValue_zero]
  · rw [floatValue_of_lt_floatInf hfin, hvalue]
    rfl

/-- Settles O54: the default format rounds the quotient once, to nearest. -/
theorem temperatureFloatExamples : Obligations.TemperatureFloatExamples := by
  refine ⟨by decide +kernel, rfl, ?_⟩
  norm_num [floatValue, floatSig, floatUlp, floatBias, Config.binary32]

end Sys2Proof.Machine
end

section
/-!
PROOFS. Faults and the faulted state (spec/60_exceptions.md R175 to R178): what fault entry writes, which words the faulted
engine takes, and how it leaves that state.
-/

namespace Sys2Proof.Machine

/-! ### Fault entry -/

/-- The codes of R175 are 1 to 8. -/
theorem toNat_causeCode_bounds (c : FaultCause) : 1 ≤ (causeCode c).toNat ∧ (causeCode c).toNat ≤ 8 := by
  cases c <;> decide

/-- A word that an unfaulted engine takes is recorded as a fault, or leaves FAULTED 0 (R176). -/
theorem step_of_not_faulted {s t : State} {cw : Command} {rest : List Command} (hf : s.faulted = false)
    (hp : s.pending = cw :: rest) (h : step s = .next t) :
    (∃ c, t = recordFault c cw (setPending rest s)) ∨ t.faulted = false := by
  have hf' : (setPending rest s).faulted = false := hf
  cases hd : decode cw with
  | ok i =>
    rw [stepRunsDecodedCommand s cw rest i hp hd] at h
    rcases exec_next_cases h with ⟨hs, -⟩ | ⟨-, c, -, ht⟩ | hr
    · exact absurd hs (by simp [hf])
    · rw [encodeOfDecode cw i hd] at ht
      exact .inl ⟨c, ht⟩
    · rcases hr.fault with ⟨ht, -⟩ | ⟨ht, -⟩
      exacts [.inr (ht.trans hf), .inr ht]
  | error e =>
    rw [step_of_decode_error hp hd, rejectWord, enterFault_of_not_faulted hf'] at h
    cases h
    exact .inl ⟨.illegalCmd, rfl⟩

/-! ### The three commands of the faulted engine -/

theorem exec_taken {i : Instr} {s t : State} (hi : takenWhenFaulted i = true) (hb : bodyOf i s = .ok t) :
    exec i s = .next t :=
  (exec_eq_runCommand i s).trans (runCommand_taken hi hb)

theorem exec_dropped {i : Instr} {s : State} (hf : s.faulted = true) (hi : takenWhenFaulted i = false) :
    exec i s = .next s :=
  (exec_eq_runCommand i s).trans (runCommand_dropped hf hi)

/-- An RD that is taken in every state reads its register, if its guard allows (R152, R177). -/
theorem exec_rd_taken {r : Reg} {s : State} (hi : takenWhenFaulted (.rd (regNumber r)) = true)
    (hr : readable s r = true) : exec (.rd (regNumber r)) s = .next (emit (.out (regValue s r)) s) := by
  have hb : rdBody (regNumber r) s = .ok (emit (.out (regValue s r)) s) := by
    simpa [regOfNumber_regNumber, hr] using rdBody_cases (regNumber r) s
  exact exec_taken (i := .rd (regNumber r)) hi hb

/-- SRST is taken in every state and nothing is checked (R156, R177). -/
theorem exec_srst (s : State) : exec .srst s = .next (resetEngine s) :=
  exec_taken (i := .srst) rfl rfl

/-- The words of the commands that the faulted engine takes (R177). -/
theorem encode_of_takenWhenFaulted {i : Instr} (hi : takenWhenFaulted i = true) :
    encode i = 0x8000 ∨ encode i = 0x8001 ∨ encode i = 0x0F00 := by
  cases i with
  | srst => exact .inr (.inr rfl)
  | rd reg =>
    simp only [takenWhenFaulted, Bool.or_eq_true, beq_iff_eq] at hi
    rcases hi with rfl | rfl
    exacts [.inl rfl, .inr (.inl rfl)]
  | _ => cases hi

theorem step_of_encode {s : State} {rest : List Command} (i : Instr) (hp : s.pending = encode i :: rest) :
    step s = exec i (setPending rest s) :=
  stepRunsDecodedCommand s _ rest i hp (decodeOfEncode i)

/-- A word that is none of the three is dropped: as a command that is not taken, or as a reserved word (R177). -/
theorem step_of_dropped_word {s : State} {cw : Command} {rest : List Command} (hf : s.faulted = true)
    (hp : s.pending = cw :: rest) (hstatus : cw ≠ 0x8000) (hfault : cw ≠ 0x8001) (hsrst : cw ≠ 0x0F00) :
    step s = .next (setPending rest s) := by
  have hf' : (setPending rest s).faulted = true := hf
  rcases decode_cases cw with ⟨i, -, rfl⟩ | ⟨e, hd, -⟩
  · have hi : takenWhenFaulted i = false := by
      rw [← Bool.not_eq_true]
      intro htaken
      rcases encode_of_takenWhenFaulted htaken with h | h | h
      exacts [hstatus h, hfault h, hsrst h]
    rw [step_of_encode i hp, exec_dropped hf' hi]
  · rw [step_of_decode_error hp hd, rejectWord, enterFault_of_faulted hf']

/-! ### The way out -/

/-- SRST leads to the state R42 describes (R156, R178). -/
theorem isReset_resetEngine (s : State) : IsReset (resetEngine s) := by
  constructor
  case status => simp [statusWord, flagBit]
  all_goals intros; rfl

/-- The FAULTED column of the write matrix for a whole run (R43). -/
theorem BodyRun.faulted {i : Instr} {s t : State} (h : BodyRun i s t) (hsrst : i ≠ .srst) : t.faulted = s.faulted := by
  cases h
  case srst => exact absurd rfl hsrst
  all_goals simp [Machine.cycleFailed, cycleSucceeded]

/-! ### The obligations -/

/-- Settles O10: of the two things an unfaulted engine does with a word, only recording a fault sets FAULTED. -/
theorem faultsArePrecise : Obligations.FaultsArePrecise := by
  intro s t cw rest hf hp h ht
  rcases step_of_not_faulted hf hp h with ⟨c, rfl⟩ | ht'
  · obtain ⟨hlow, hhigh⟩ := toNat_causeCode_bounds c
    exact ⟨causeCode c, hlow, hhigh, rfl⟩
  · exact absurd (ht.symm.trans ht') (by decide)

/-- Settles O11: the first three words are those of the commands that are taken, and every other word is dropped. -/
theorem faultedEngineTakesThreeCommands : Obligations.FaultedEngineTakesThreeCommands := by
  intro s cw rest hf hp
  refine ⟨?_, ?_, ?_, step_of_dropped_word hf hp⟩
  · rintro rfl
    exact (step_of_encode (.rd (regNumber .status)) hp).trans (exec_rd_taken rfl rfl)
  · rintro rfl
    exact (step_of_encode (.rd (regNumber .fault)) hp).trans (exec_rd_taken rfl rfl)
  · rintro rfl
    exact ⟨_, (step_of_encode .srst hp).trans (exec_srst _), isReset_resetEngine _, rfl, rfl⟩

/-- Settles O12: waiting, a dropped word and every whole run but that of SRST leave FAULTED as it is. -/
theorem onlySrstLeavesFault : Obligations.OnlySrstLeavesFault := by
  intro s t hf h ht
  by_contra hword
  have hkeep : t.faulted = s.faulted := by
    rcases step_cases s with ⟨-, e⟩ | ⟨cw, rest, i, hp, hd, e⟩ | ⟨cw, rest, -, -, -, e⟩ <;> rw [e] at h
    · cases h
      rfl
    · have hsrst : i ≠ .srst := by
        rintro rfl
        exact hword ⟨rest, by rw [hp, ← encodeOfDecode cw .srst hd]; rfl⟩
      rcases exec_next_cases h with ⟨-, rfl⟩ | ⟨hf', -⟩ | hr
      exacts [rfl, absurd (hf.symm.trans hf') (by decide), hr.faulted hsrst]
    · rw [rejectWord, enterFault_of_faulted (s := setPending rest s) hf] at h
      cases h
      rfl
  exact absurd (hf.symm.trans (hkeep.symm.trans ht)) (by decide)

end Sys2Proof.Machine
end

section
/-!
PROOFS. Reset and hazards (spec/70_reset_and_hazards.md R200 to R211): both resets reach the reset state, the commands that
state takes without a fault, the parameters, and that nothing stops the engine.
-/

namespace Sys2Proof.Machine

/-! ### A next state, and the parameters in it -/

theorem exec_next (i : Instr) (s : State) : ∃ t, exec i s = .next t := by
  rw [exec_eq_runCommand]
  exact runCommand_next i (bodyOf i) s

/-- Settles O9: a step waits, runs a command, which always has a next state, or rejects a word. -/
theorem everyCommandEnds : Obligations.EveryCommandEnds := by
  refine ⟨exec_next, fun s => ?_⟩
  rcases step_cases s with ⟨-, e⟩ | ⟨_, rest, i, -, -, e⟩ | ⟨_, _, _, -, -, e⟩ <;> rw [e]
  exacts [⟨_, rfl⟩, exec_next i (setPending rest s), ⟨_, rfl⟩]

theorem BodyRun.params {i : Instr} {s t : State} (h : BodyRun i s t) : t.params = s.params := by
  cases h <;> rfl

/-- Settles O47: taking a word, recording a fault and every whole run leave the parameters. -/
theorem parametersNeverChange : Obligations.ParametersNeverChange := fun s _ h =>
  step_keeps (P := fun u => u.params = s.params) (fun _ _ hu => hu) (fun _ _ _ hu => hu)
    (fun _ _ _ hr hu => hr.params.trans hu) rfl h

/-! ### The two resets -/

theorem isReset_reset : IsReset State.reset := by
  constructor
  all_goals intros; rfl

/-- SRST leaves what power-on leaves, but for the content behind the guards it clears (R31, R42, R200). -/
theorem sameObservable_resetEngine_reset (s : State) :
    SameObservable (resetEngine s)
      { State.reset with params := s.params, pending := s.pending, history := s.history } := by
  constructor
  case cal | adcT | adcH | tFine | tOut | hOut => exact nofun
  all_goals rfl

/-- Settles O14: SRST is taken in every state and leads to `resetEngine`, which `State.reset` agrees with. -/
theorem resetAndSrstAgree : Obligations.ResetAndSrstAgree :=
  ⟨isReset_reset, fun s =>
    ⟨_, exec_srst s, isReset_resetEngine s, sameObservable_resetEngine_reset s⟩⟩

/-! ### The first commands after a reset -/

/-- In the reset state CALLD meets an unwritten cell under either policy: a status cell, or else a data cell (R53, R100). -/
theorem calldBody_of_isReset {s : State} (hs : IsReset s) : calldBody s = .error .uninitInput := by
  cases hp : s.params.calFailPolicy with
  | silent => exact calldBody_of_someUnwritten (.inl hp) (.inl ⟨0, by decide, hs.unwritten _⟩)
  | error => simp only [calldBody, calibrationReadFailed_of_unwritten hp (.inl (hs.unwritten _))]

/-- In the reset state ACQ finds the status of the identity read unwritten (R53, R111). -/
theorem acqBody_of_isReset {s : State} (hs : IsReset s) : acqBody s = .error .uninitInput := by
  simp only [acqBody, acquire_of_unwritten (.inl (hs.unwritten _))]

/-- In the reset state every guard is 0, so the registers that may be read are the unguarded ones (R31, R42). -/
theorem readable_iff_of_isReset {s : State} (hs : IsReset s) (r : Reg) : readable s r = true ↔ guardOf r = none := by
  unfold readable
  cases guardOf r with
  | none => simp
  | some g => cases g <;> simp [guardFlag, hs.calValid, hs.rawValid, hs.tfValid, hs.toutValid, hs.houtValid]

/-- The unguarded rows of R88. -/
theorem guardOf_eq_none_iff (r : Reg) :
    guardOf r = none ↔
      regNumber r = 0 ∨ regNumber r = 1 ∨ regNumber r = 2 ∨ regNumber r = 4 ∨ regNumber r = 5 := by
  cases r <;> decide

/-- The numbers that name an unguarded register (R88). -/
theorem exists_unguarded_iff (n : BitVec 6) :
    (∃ r, regOfNumber n = some r ∧ guardOf r = none) ↔ n = 0 ∨ n = 1 ∨ n = 2 ∨ n = 4 ∨ n = 5 := by
  constructor
  · rintro ⟨r, hreg, hguard⟩
    rw [← regNumber_of_regOfNumber hreg]
    exact (guardOf_eq_none_iff r).mp hguard
  · rintro (rfl | rfl | rfl | rfl | rfl)
    exacts [⟨.status, rfl, rfl⟩, ⟨.fault, rfl, rfl⟩, ⟨.diagcnt, rfl, rfl⟩, ⟨.curT, rfl, rfl⟩, ⟨.curH, rfl, rfl⟩]

/-- Settles O15: of the whole runs, those of CALLD and ACQ need a written cell and those of TCOMP, HCOMP and CYCLE need
CAL_VALID; a whole run of SRST, WRB or RD needs what the statement says of it. -/
theorem firstCommandsThatDoNotFault : Obligations.FirstCommandsThatDoNotFault := by
  intro s t i hs h
  constructor
  · intro ht
    have hb := bodyOf_ok_of_exec_next h ht
    cases bodyRun_of_ok hb with
    | calldFailed | calldLoaded => exact nomatch (calldBody_of_isReset hs).symm.trans hb
    | acqFailed | acqRead => exact nomatch (acqBody_of_isReset hs).symm.trans hb
    | tcomp _ hc | hcomp _ hc | cycleFailed _ hc | cycleRead _ _ hc => exact nomatch hs.calValid.symm.trans hc
    | srst => exact .inl rfl
    | wrb a d _ ha => exact .inr (.inl ⟨a, d, rfl, ha⟩)
    | rd n r _ hreg hr =>
      exact .inr (.inr ⟨n, rfl, (exists_unguarded_iff n).mp ⟨r, hreg, (readable_iff_of_isReset hs r).mp hr⟩⟩)
  · rintro (rfl | ⟨a, d, rfl, ha⟩ | ⟨n, rfl, hn⟩)
    · cases (exec_srst s).symm.trans h
      rfl
    · cases (exec_wrb_assigned d hs.faulted ha).symm.trans h
      exact hs.faulted
    · obtain ⟨r, hreg, hguard⟩ := (exists_unguarded_iff n).mpr hn
      cases (exec_rd_readable hs.faulted hreg ((readable_iff_of_isReset hs r).mpr hguard)).symm.trans h
      exact hs.faulted

end Sys2Proof.Machine
end
